-- ==== Sys2Proof/Word.lean ====
section
/-! DEFINITION. The word types of the manual: registers, addresses and logical times as bit vectors. -/

namespace Sys2Proof

/-- R9: a general register. -/
abbrev Word := BitVec 32
/-- R12: a register pair. -/
abbrev DWord := BitVec 64
/-- R21: a virtual address. -/
abbrev VAddr := BitVec 56
/-- R230: a point of logical time. -/
abbrev LTime := BitVec 24
/-- R3: the 128 bytes of a line. -/
abbrev Line := BitVec 1024
/-- R202: one bit for each byte of a line. -/
abbrev LineMask := BitVec 128
/-- R7: the unit of memory. -/
abbrev Byte := BitVec 8

end Sys2Proof
end

