-- ==== Sys2Proof/Syntax.lean ====
section
/-! DEFINITION. The instruction set as syntax: the five 64-bit sub-formats (R67), the operand types of the part's
own steps, and the one inductive `Instr` with a constructor for every row of the opcode table. A row that has an
encoding is an instruction of a thread (16, 32 or 64 bits); a row without one is a step of the part, of the host or of
privileged software ("What each step holds"), and its operands say which unit takes the step. -/

namespace Sys2Proof

/-- R66, R67: a 64-bit instruction of sub-format X3. Every field is kept as the manual numbers it. -/
structure X3 where
  guard : BitVec 4
  sense : BitVec 1
  d : BitVec 8
  a : BitVec 8
  b : BitVec 8
  c : BitVec 8
  scope : BitVec 6
  ovf : BitVec 2
  ftz : BitVec 1
  fs : BitVec 1
  ty : BitVec 4
  rm : BitVec 2
  deriving DecidableEq, Repr

/-- R66, R67: sub-format XI, a 32-bit immediate; fields B and C do not exist. -/
structure XI where
  guard : BitVec 4
  sense : BitVec 1
  d : BitVec 8
  a : BitVec 8
  imm : BitVec 32
  deriving DecidableEq, Repr

/-- R66, R67: sub-format XM, memory instructions. The reserved bits [49:48] are zero in every instruction. -/
structure XM where
  guard : BitVec 4
  sense : BitVec 1
  d : BitVec 8
  a : BitVec 8
  b : BitVec 8
  c : BitVec 8
  var : BitVec 4
  fs : BitVec 1
  size : BitVec 3
  scope : BitVec 6
  deriving DecidableEq, Repr

/-- R66, R67: sub-format XE, engine and object commands. The reserved bit [48] is zero in every instruction. -/
structure XE where
  guard : BitVec 4
  sense : BitVec 1
  d : BitVec 8
  a : BitVec 8
  b : BitVec 8
  c : BitVec 8
  fs : BitVec 1
  scope : BitVec 6
  var8 : BitVec 8
  deriving DecidableEq, Repr

/-- R66, R67: sub-format XS, a 16-bit system immediate. -/
structure XS where
  guard : BitVec 4
  sense : BitVec 1
  d : BitVec 8
  a : BitVec 8
  b : BitVec 8
  c : BitVec 8
  simm : BitVec 16
  deriving DecidableEq, Repr

/-- R231: the holders of a clock of logical time: a quay die's home clock, or the local clock of an L1, of a slice of
a fused L1 or of an L2 slice. -/
inductive Clock where
  | home (qd : Nat)
  | l1 (core : Nat)
  | fused (cluster slice : Nat)
  | l2 (die slice : Nat)
  deriving DecidableEq, Repr

/-- R199: the points below the home that hold copies of global lines. -/
inductive Point where
  | l1 (core : Nat)
  | fused (cluster : Nat)
  | l2 (die : Nat)
  deriving DecidableEq, Repr

/-- R330: the kinds of access a translation is asked for. -/
inductive Access where
  | read | write | fetch
  deriving DecidableEq, Repr

/-- R349, R350: the credential a mailbox command carries. -/
inductive Credential where
  | none
  | provider
  | tenant (t : BitVec 16)
  deriving DecidableEq, Repr

/-- R398: the meta state a CXL.mem request of the host names. -/
inductive HostMeta where
  | noMeta | i | s | a
  deriving DecidableEq, Repr

/-- R418: a firmware image as the authentication sees it. -/
structure Image where
  version : BitVec 16
  digest : BitVec 384
  signature : BitVec 768
  deriving DecidableEq, Repr, Inhabited

/-- R399, R401: what a Causk flit of a peer package brings. Every message carries the sender's clock (R232). -/
inductive LinkMsg where
  /-- R235, R401: a load of a line of the receiver's home; R384: it carries its CTXID -/
  | loadRequest (req pkg ctx line : Nat) (held : Option (BitVec 24)) (readOnly : Bool) (pts clk : BitVec 24)
  | loadReply (req : Nat) (data : BitVec 1024) (wts rts clk : BitVec 24)
  /-- R236, R401: dirty bytes for the receiver's home -/
  | storeRequest (req pkg ctx line : Nat) (data : BitVec 1024) (mask : BitVec 128) (pts clk : BitVec 24)
  | storeReply (req : Nat) (wts clk : BitVec 24)
  /-- R401: an atomic at the receiver's home: byte offset, size, operation, operand and comparison of each lane -/
  | atomRequest (req pkg ctx line : Nat) (ops : List (Nat × Nat × Nat × BitVec 64 × BitVec 64)) (pts clk : BitVec 24)
  /-- with the wts of the value it found and the wts it took -/
  | atomReply (req : Nat) (olds : List (BitVec 64)) (old wts clk : BitVec 24)
  /-- R331, R384: a load or an atomic meets an uncorrectable error at its home, or a key slot there that is gone -/
  | errorReply (req : Nat) (gone : Bool) (clk : BitVec 24)
  /-- R243, R278: the chunks of a participant of a collective: a number in the sender's sequence, and that of the collective -/
  | collChunk (seq ctx inst : Nat) (tag : BitVec 32) (pkg die : Nat) (chunk : List (BitVec 32)) (descriptor : BitVec 64) (clk : BitVec 24)
  /-- R399: credits given back for a channel -/
  | credits (channel count : Nat) (clk : BitVec 24)
  deriving DecidableEq, Repr

/-- One constructor for every row of the opcode table, in the table's order. -/
inductive Instr where
  /-- MOV_16, R63. -/
  | mov16 (y : BitVec 5) (x : BitVec 6)
  /-- IADD_16, R63. -/
  | iadd16 (y : BitVec 5) (x : BitVec 6)
  /-- ISUB_16, R63. -/
  | isub16 (y : BitVec 5) (x : BitVec 6)
  /-- IMUL_16, R63. -/
  | imul16 (y : BitVec 5) (x : BitVec 6)
  /-- AND_16, R63. -/
  | and16 (y : BitVec 5) (x : BitVec 6)
  /-- OR_16, R63. -/
  | or16 (y : BitVec 5) (x : BitVec 6)
  /-- XOR_16, R63. -/
  | xor16 (y : BitVec 5) (x : BitVec 6)
  /-- SHL_16, R63. -/
  | shl16 (y : BitVec 5) (x : BitVec 6)
  /-- SHR_16, R63. -/
  | shr16 (y : BitVec 5) (x : BitVec 6)
  /-- SAR_16, R63. -/
  | sar16 (y : BitVec 5) (x : BitVec 6)
  /-- FADD_16, R63. -/
  | fadd16 (y : BitVec 5) (x : BitVec 6)
  /-- FSUB_16, R63. -/
  | fsub16 (y : BitVec 5) (x : BitVec 6)
  /-- FMUL_16, R63. -/
  | fmul16 (y : BitVec 5) (x : BitVec 6)
  /-- FMAX_16, R63. -/
  | fmax16 (y : BitVec 5) (x : BitVec 6)
  /-- FMIN_16, R63. -/
  | fmin16 (y : BitVec 5) (x : BitVec 6)
  /-- HADD2_16, R63. -/
  | hadd216 (y : BitVec 5) (x : BitVec 6)
  /-- NOP, R112. -/
  | nop
  /-- NOP_W, R112. -/
  | nopW (f : XS)
  /-- BRA, R106. -/
  | bra (j : BitVec 21)
  /-- BRA_W, R106. -/
  | braW (f : XI)
  /-- BRX, R106. -/
  | brx (a : BitVec 7)
  /-- BRX_W, R106. -/
  | brxW (f : X3)
  /-- CALL, R106. -/
  | call (j : BitVec 21)
  /-- CALL_W, R106. -/
  | callW (f : XI)
  /-- CALLX, R106. -/
  | callx (a : BitVec 7)
  /-- CALLX_W, R106. -/
  | callxW (f : X3)
  /-- RET, R106. -/
  | ret
  /-- RET_W, R106. -/
  | retW (f : X3)
  /-- LOOP, R107. -/
  | loop (off : BitVec 12) (lcn : BitVec 2) (cnt : BitVec 7)
  /-- LOOP_W, R107. -/
  | loopW (f : XI)
  /-- LBRK, R108. -/
  | lbrk (d : BitVec 7)
  /-- LBRK_W, R108. -/
  | lbrkW (f : X3)
  /-- EXIT, R109. -/
  | exit
  /-- EXIT_W, R109. -/
  | exitW (f : X3)
  /-- YIELD, R110. -/
  | yield
  /-- YIELD_W, R110. -/
  | yieldW (f : X3)
  /-- WAITF, R110. -/
  | waitf (k : BitVec 12)
  /-- WAITF_W, R110. -/
  | waitfW (f : XI)
  /-- SVAL, R111. -/
  | sval (s : BitVec 7) (d : BitVec 7)
  /-- SVAL_W, R111. -/
  | svalW (f : XI)
  /-- PARTSET, R151. -/
  | partset (b : BitVec 3)
  /-- PARTSET_W, R151. -/
  | partsetW (f : X3)
  /-- MODE_M, R161. -/
  | modeM
  /-- MODE_V, R161. -/
  | modeV
  /-- MODE_W, R161. -/
  | modeW (f : X3)
  /-- SLEEP, R110. -/
  | sleep (n : BitVec 14)
  /-- SLEEP_W, R110. -/
  | sleepW (f : XI)
  /-- TRAP, R334. -/
  | trap (n : BitVec 7)
  /-- TRAP_SVC, R327. -/
  | trapSvc (n : BitVec 7) (a : BitVec 7) (d : BitVec 7)
  /-- TRAP_W, R334. -/
  | trapW (f : XS)
  /-- TRAP_SVC_W, R327. -/
  | trapSvcW (f : XS)
  /-- TRET, R322. -/
  | tret (m : Bool)
  /-- TRET_W, R322. -/
  | tretW (f : XS)
  /-- PREACK, R324. -/
  | preack
  /-- PREACK_W, R324. -/
  | preackW (f : XS)
  /-- PLOP, R101. -/
  | plop (b : BitVec 7) (a : BitVec 7) (d : BitVec 7)
  /-- PLOP_W, R101. -/
  | plopW (f : X3)
  /-- PMOV, R101. -/
  | pmov (m : Bool) (b : BitVec 7) (a : BitVec 7) (d : BitVec 7)
  /-- PMOV_W, R101. -/
  | pmovW (f : X3)
  /-- PSET, R101. -/
  | pset (b : BitVec 7) (a : BitVec 7) (d : BitVec 7)
  /-- PSET_W, R101. -/
  | psetW (f : X3)
  /-- PCNT, R101. -/
  | pcnt (a : BitVec 7) (d : BitVec 7)
  /-- PCNT_W, R101. -/
  | pcntW (f : X3)
  /-- SEL, R99. -/
  | sel (m : Bool) (b : BitVec 7) (a : BitVec 7) (d : BitVec 7)
  /-- SEL_W, R99. -/
  | selW (f : X3)
  /-- MOV, R99. -/
  | mov (b : BitVec 7) (a : BitVec 7) (d : BitVec 7)
  /-- MOV_W, R99. -/
  | movW (f : X3)
  /-- MOVI, R99. -/
  | movi (k : BitVec 14) (d : BitVec 7)
  /-- MOVI_W, R99. -/
  | moviW (f : XI)
  /-- LEA, R100. -/
  | lea (m : Bool) (b : BitVec 7) (a : BitVec 7) (d : BitVec 7)
  /-- LEA_W, R100. -/
  | leaW (f : X3)
  /-- ICMP, R98. -/
  | icmp (m : Bool) (b : BitVec 7) (a : BitVec 7) (d : BitVec 7)
  /-- ICMP_W, R98. -/
  | icmpW (f : X3)
  /-- ICMPP, R98. -/
  | icmpp (m : Bool) (b : BitVec 7) (a : BitVec 7) (d : BitVec 7)
  /-- ICMPP_W, R98. -/
  | icmppW (f : X3)
  /-- IADD, R90. -/
  | iadd (b : BitVec 7) (a : BitVec 7) (d : BitVec 7)
  /-- IADD_W, R90. -/
  | iaddW (f : X3)
  /-- ISUB, R90. -/
  | isub (b : BitVec 7) (a : BitVec 7) (d : BitVec 7)
  /-- ISUB_W, R90. -/
  | isubW (f : X3)
  /-- IADDC, R92. -/
  | iaddc (b : BitVec 7) (a : BitVec 7) (d : BitVec 7)
  /-- IADDC_W, R92. -/
  | iaddcW (f : X3)
  /-- ISUBB, R92. -/
  | isubb (b : BitVec 7) (a : BitVec 7) (d : BitVec 7)
  /-- ISUBB_W, R92. -/
  | isubbW (f : X3)
  /-- IMUL, R90. -/
  | imul (b : BitVec 7) (a : BitVec 7) (d : BitVec 7)
  /-- IMUL_W, R90. -/
  | imulW (f : X3)
  /-- IMULH, R90. -/
  | imulh (m : Bool) (b : BitVec 7) (a : BitVec 7) (d : BitVec 7)
  /-- IMULH_W, R90. -/
  | imulhW (f : X3)
  /-- IMAD, R90. -/
  | imad (b : BitVec 7) (a : BitVec 7) (d : BitVec 7)
  /-- IMAD_W, R90. -/
  | imadW (f : X3)
  /-- IMADW, R90. -/
  | imadw (m : Bool) (b : BitVec 7) (a : BitVec 7) (d : BitVec 7)
  /-- IMADW_W, R90. -/
  | imadwW (f : X3)
  /-- INEG, R90. -/
  | ineg (a : BitVec 7) (d : BitVec 7)
  /-- INEG_W, R90. -/
  | inegW (f : X3)
  /-- IABS, R90. -/
  | iabs (a : BitVec 7) (d : BitVec 7)
  /-- IABS_W, R90. -/
  | iabsW (f : X3)
  /-- IMIN, R90. -/
  | imin (m : Bool) (b : BitVec 7) (a : BitVec 7) (d : BitVec 7)
  /-- IMIN_W, R90. -/
  | iminW (f : X3)
  /-- IMAX, R90. -/
  | imax (m : Bool) (b : BitVec 7) (a : BitVec 7) (d : BitVec 7)
  /-- IMAX_W, R90. -/
  | imaxW (f : X3)
  /-- POPC, R93. -/
  | popc (a : BitVec 7) (d : BitVec 7)
  /-- POPC_W, R93. -/
  | popcW (f : X3)
  /-- CLZ, R93. -/
  | clz (a : BitVec 7) (d : BitVec 7)
  /-- CLZ_W, R93. -/
  | clzW (f : X3)
  /-- CTZ, R93. -/
  | ctz (a : BitVec 7) (d : BitVec 7)
  /-- CTZ_W, R93. -/
  | ctzW (f : X3)
  /-- BREV, R93. -/
  | brev (a : BitVec 7) (d : BitVec 7)
  /-- BREV_W, R93. -/
  | brevW (f : X3)
  /-- AND, R94. -/
  | and (b : BitVec 7) (a : BitVec 7) (d : BitVec 7)
  /-- AND_W, R94. -/
  | andW (f : X3)
  /-- OR, R94. -/
  | or (b : BitVec 7) (a : BitVec 7) (d : BitVec 7)
  /-- OR_W, R94. -/
  | orW (f : X3)
  /-- XOR, R94. -/
  | xor (b : BitVec 7) (a : BitVec 7) (d : BitVec 7)
  /-- XOR_W, R94. -/
  | xorW (f : X3)
  /-- ANDN, R94. -/
  | andn (b : BitVec 7) (a : BitVec 7) (d : BitVec 7)
  /-- ANDN_W, R94. -/
  | andnW (f : X3)
  /-- NOT, R94. -/
  | not (a : BitVec 7) (d : BitVec 7)
  /-- NOT_W, R94. -/
  | notW (f : X3)
  /-- SHL, R94. -/
  | shl (b : BitVec 7) (a : BitVec 7) (d : BitVec 7)
  /-- SHL_W, R94. -/
  | shlW (f : X3)
  /-- SHR, R94. -/
  | shr (b : BitVec 7) (a : BitVec 7) (d : BitVec 7)
  /-- SHR_W, R94. -/
  | shrW (f : X3)
  /-- SAR, R94. -/
  | sar (b : BitVec 7) (a : BitVec 7) (d : BitVec 7)
  /-- SAR_W, R94. -/
  | sarW (f : X3)
  /-- SHF, R95. -/
  | shf (b : BitVec 7) (a : BitVec 7) (d : BitVec 7)
  /-- SHF_W, R95. -/
  | shfW (f : X3)
  /-- BFX, R96. -/
  | bfx (m : Bool) (b : BitVec 7) (a : BitVec 7) (d : BitVec 7)
  /-- BFX_W, R96. -/
  | bfxW (f : X3)
  /-- BFI, R96. -/
  | bfi (b : BitVec 7) (a : BitVec 7) (d : BitVec 7)
  /-- BFI_W, R96. -/
  | bfiW (f : X3)
  /-- PRMT, R97. -/
  | prmt (b : BitVec 7) (a : BitVec 7) (d : BitVec 7)
  /-- PRMT_W, R97. -/
  | prmtW (f : X3)
  /-- IADD_IMM, R78. -/
  | iaddImm (i : BitVec 7) (a : BitVec 7) (d : BitVec 7)
  /-- IADD_IMM_W, R78. -/
  | iaddImmW (f : XI)
  /-- ISUB_IMM, R78. -/
  | isubImm (i : BitVec 7) (a : BitVec 7) (d : BitVec 7)
  /-- ISUB_IMM_W, R78. -/
  | isubImmW (f : XI)
  /-- IMUL_IMM, R78. -/
  | imulImm (i : BitVec 7) (a : BitVec 7) (d : BitVec 7)
  /-- IMUL_IMM_W, R78. -/
  | imulImmW (f : XI)
  /-- AND_IMM, R78. -/
  | andImm (i : BitVec 7) (a : BitVec 7) (d : BitVec 7)
  /-- AND_IMM_W, R78. -/
  | andImmW (f : XI)
  /-- OR_IMM, R78. -/
  | orImm (i : BitVec 7) (a : BitVec 7) (d : BitVec 7)
  /-- OR_IMM_W, R78. -/
  | orImmW (f : XI)
  /-- XOR_IMM, R78. -/
  | xorImm (i : BitVec 7) (a : BitVec 7) (d : BitVec 7)
  /-- XOR_IMM_W, R78. -/
  | xorImmW (f : XI)
  /-- SHL_IMM, R78. -/
  | shlImm (i : BitVec 7) (a : BitVec 7) (d : BitVec 7)
  /-- SHL_IMM_W, R78. -/
  | shlImmW (f : XI)
  /-- SHR_IMM, R78. -/
  | shrImm (i : BitVec 7) (a : BitVec 7) (d : BitVec 7)
  /-- SHR_IMM_W, R78. -/
  | shrImmW (f : XI)
  /-- SAR_IMM, R78. -/
  | sarImm (i : BitVec 7) (a : BitVec 7) (d : BitVec 7)
  /-- SAR_IMM_W, R78. -/
  | sarImmW (f : XI)
  /-- IMIN_IMM, R78. -/
  | iminImm (i : BitVec 7) (a : BitVec 7) (d : BitVec 7)
  /-- IMIN_IMM_W, R78. -/
  | iminImmW (f : XI)
  /-- IMAX_IMM, R78. -/
  | imaxImm (i : BitVec 7) (a : BitVec 7) (d : BitVec 7)
  /-- IMAX_IMM_W, R78. -/
  | imaxImmW (f : XI)
  /-- ICMP_IMM, R98. -/
  | icmpImm (i : BitVec 7) (a : BitVec 7) (d : BitVec 7)
  /-- ICMP_IMM_W, R98. -/
  | icmpImmW (f : XI)
  /-- ICMPP_IMM, R98. -/
  | icmppImm (m : Bool) (i : BitVec 7) (a : BitVec 7) (d : BitVec 7)
  /-- ICMPP_IMM_W, R98. -/
  | icmppImmW (f : XI)
  /-- LEA_IMM, R100. -/
  | leaImm (i : BitVec 7) (a : BitVec 7) (d : BitVec 7)
  /-- LEA_IMM_W, R100. -/
  | leaImmW (f : XI)
  /-- ADD64_IMM, R100. -/
  | add64Imm (i : BitVec 7) (a : BitVec 7) (d : BitVec 7)
  /-- ADD64_IMM_W, R100. -/
  | add64ImmW (f : XI)
  /-- ADD64, R100. -/
  | add64 (b : BitVec 7) (a : BitVec 7) (d : BitVec 7)
  /-- ADD64_W, R100. -/
  | add64W (f : X3)
  /-- SUB64, R100. -/
  | sub64 (b : BitVec 7) (a : BitVec 7) (d : BitVec 7)
  /-- SUB64_W, R100. -/
  | sub64W (f : X3)
  /-- SHL64, R100. -/
  | shl64 (b : BitVec 7) (a : BitVec 7) (d : BitVec 7)
  /-- SHL64_W, R100. -/
  | shl64W (f : X3)
  /-- CMP64, R100. -/
  | cmp64 (m : Bool) (b : BitVec 7) (a : BitVec 7) (d : BitVec 7)
  /-- CMP64_W, R100. -/
  | cmp64W (f : X3)
  /-- MAD64, R100. -/
  | mad64 (b : BitVec 7) (a : BitVec 7) (d : BitVec 7)
  /-- MAD64_W, R100. -/
  | mad64W (f : X3)
  /-- I2F, R102. -/
  | i2f (m : Bool) (a : BitVec 7) (d : BitVec 7)
  /-- I2F_W, R102. -/
  | i2fW (f : X3)
  /-- F2I, R102. -/
  | f2i (m : Bool) (a : BitVec 7) (d : BitVec 7)
  /-- F2I_W, R102. -/
  | f2iW (f : X3)
  /-- F2F, R124. -/
  | f2f (m : Bool) (a : BitVec 7) (d : BitVec 7)
  /-- F2F_W, R124. -/
  | f2fW (f : X3)
  /-- PACK, R103. -/
  | pack (m : Bool) (b : BitVec 7) (a : BitVec 7) (d : BitVec 7)
  /-- PACK_W, R103. -/
  | packW (f : X3)
  /-- UNPACK, R104. -/
  | unpack (m : Bool) (a : BitVec 7) (d : BitVec 7)
  /-- UNPACK_W, R104. -/
  | unpackW (f : X3)
  /-- FADD, R115. -/
  | fadd (b : BitVec 7) (a : BitVec 7) (d : BitVec 7)
  /-- FADD_W, R115. -/
  | faddW (f : X3)
  /-- FSUB, R115. -/
  | fsub (b : BitVec 7) (a : BitVec 7) (d : BitVec 7)
  /-- FSUB_W, R115. -/
  | fsubW (f : X3)
  /-- FMUL, R115. -/
  | fmul (b : BitVec 7) (a : BitVec 7) (d : BitVec 7)
  /-- FMUL_W, R115. -/
  | fmulW (f : X3)
  /-- FFMA, R115. -/
  | ffma (b : BitVec 7) (a : BitVec 7) (d : BitVec 7)
  /-- FFMA_W, R115. -/
  | ffmaW (f : X3)
  /-- FMIN, R116. -/
  | fmin (b : BitVec 7) (a : BitVec 7) (d : BitVec 7)
  /-- FMIN_W, R116. -/
  | fminW (f : X3)
  /-- FMAX, R116. -/
  | fmax (b : BitVec 7) (a : BitVec 7) (d : BitVec 7)
  /-- FMAX_W, R116. -/
  | fmaxW (f : X3)
  /-- FCMP, R117. -/
  | fcmp (b : BitVec 7) (a : BitVec 7) (d : BitVec 7)
  /-- FCMP_W, R117. -/
  | fcmpW (f : X3)
  /-- FCMPP, R117. -/
  | fcmpp (m : Bool) (b : BitVec 7) (a : BitVec 7) (d : BitVec 7)
  /-- FCMPP_W, R117. -/
  | fcmppW (f : X3)
  /-- FRND, R118. -/
  | frnd (a : BitVec 7) (d : BitVec 7)
  /-- FRND_W, R118. -/
  | frndW (f : X3)
  /-- FCLASS, R119. -/
  | fclass (a : BitVec 7) (d : BitVec 7)
  /-- FCLASS_W, R119. -/
  | fclassW (f : X3)
  /-- FSCALE, R120. -/
  | fscale (b : BitVec 7) (a : BitVec 7) (d : BitVec 7)
  /-- FSCALE_W, R120. -/
  | fscaleW (f : X3)
  /-- FEXPN, R120. -/
  | fexpn (a : BitVec 7) (d : BitVec 7)
  /-- FEXPN_W, R120. -/
  | fexpnW (f : X3)
  /-- FMANT, R120. -/
  | fmant (a : BitVec 7) (d : BitVec 7)
  /-- FMANT_W, R120. -/
  | fmantW (f : X3)
  /-- FCPYS, R121. -/
  | fcpys (m : Bool) (b : BitVec 7) (a : BitVec 7) (d : BitVec 7)
  /-- FCPYS_W, R121. -/
  | fcpysW (f : X3)
  /-- HADD2, R122. -/
  | hadd2 (m : Bool) (b : BitVec 7) (a : BitVec 7) (d : BitVec 7)
  /-- HADD2_W, R122. -/
  | hadd2W (f : X3)
  /-- HSUB2, R122. -/
  | hsub2 (m : Bool) (b : BitVec 7) (a : BitVec 7) (d : BitVec 7)
  /-- HSUB2_W, R122. -/
  | hsub2W (f : X3)
  /-- HMUL2, R122. -/
  | hmul2 (m : Bool) (b : BitVec 7) (a : BitVec 7) (d : BitVec 7)
  /-- HMUL2_W, R122. -/
  | hmul2W (f : X3)
  /-- HFMA2, R122. -/
  | hfma2 (m : Bool) (b : BitVec 7) (a : BitVec 7) (d : BitVec 7)
  /-- HFMA2_W, R122. -/
  | hfma2W (f : X3)
  /-- HMAX2, R122. -/
  | hmax2 (m : Bool) (b : BitVec 7) (a : BitVec 7) (d : BitVec 7)
  /-- HMAX2_W, R122. -/
  | hmax2W (f : X3)
  /-- HMIN2, R122. -/
  | hmin2 (m : Bool) (b : BitVec 7) (a : BitVec 7) (d : BitVec 7)
  /-- HMIN2_W, R122. -/
  | hmin2W (f : X3)
  /-- HDOT2, R123. -/
  | hdot2 (m : Bool) (b : BitVec 7) (a : BitVec 7) (d : BitVec 7)
  /-- HDOT2_W, R123. -/
  | hdot2W (f : X3)
  /-- SIN, R127. -/
  | sin (m : Bool) (a : BitVec 7) (d : BitVec 7)
  /-- SIN_W, R127. -/
  | sinW (f : X3)
  /-- COS, R127. -/
  | cos (m : Bool) (a : BitVec 7) (d : BitVec 7)
  /-- COS_W, R127. -/
  | cosW (f : X3)
  /-- SINCOS, R127. -/
  | sincos (m : Bool) (a : BitVec 7) (d : BitVec 7)
  /-- SINCOS_W, R127. -/
  | sincosW (f : X3)
  /-- SINPI, R127. -/
  | sinpi (m : Bool) (a : BitVec 7) (d : BitVec 7)
  /-- SINPI_W, R127. -/
  | sinpiW (f : X3)
  /-- COSPI, R127. -/
  | cospi (m : Bool) (a : BitVec 7) (d : BitVec 7)
  /-- COSPI_W, R127. -/
  | cospiW (f : X3)
  /-- EXP2, R127. -/
  | exp2 (m : Bool) (a : BitVec 7) (d : BitVec 7)
  /-- EXP2_W, R127. -/
  | exp2W (f : X3)
  /-- LOG2, R127. -/
  | log2 (m : Bool) (a : BitVec 7) (d : BitVec 7)
  /-- LOG2_W, R127. -/
  | log2W (f : X3)
  /-- RCP, R127. -/
  | rcp (m : Bool) (a : BitVec 7) (d : BitVec 7)
  /-- RCP_W, R127. -/
  | rcpW (f : X3)
  /-- RSQRT, R127. -/
  | rsqrt (m : Bool) (a : BitVec 7) (d : BitVec 7)
  /-- RSQRT_W, R127. -/
  | rsqrtW (f : X3)
  /-- SQRT, R127. -/
  | sqrt (m : Bool) (a : BitVec 7) (d : BitVec 7)
  /-- SQRT_W, R127. -/
  | sqrtW (f : X3)
  /-- TANH, R127. -/
  | tanh (m : Bool) (a : BitVec 7) (d : BitVec 7)
  /-- TANH_W, R127. -/
  | tanhW (f : X3)
  /-- SHFL, R152. -/
  | shfl (m : Bool) (b : BitVec 7) (a : BitVec 7) (d : BitVec 7)
  /-- SHFL_W, R152. -/
  | shflW (f : X3)
  /-- PAIRX, R153. -/
  | pairx (m : Bool) (b : BitVec 7) (a : BitVec 7) (d : BitVec 7)
  /-- PAIRX_W, R153. -/
  | pairxW (f : X3)
  /-- VOTE, R154. -/
  | vote (m : Bool) (a : BitVec 7) (d : BitVec 7)
  /-- VOTE_W, R154. -/
  | voteW (f : X3)
  /-- REDUX, R156. -/
  | redux (m : Bool) (b : BitVec 7) (a : BitVec 7) (d : BitVec 7)
  /-- REDUX_W, R156. -/
  | reduxW (f : X3)
  /-- SCAN, R156. -/
  | scan (m : Bool) (b : BitVec 7) (a : BitVec 7) (d : BitVec 7)
  /-- SCAN_W, R156. -/
  | scanW (f : X3)
  /-- MATCH, R155. -/
  | matchL (m : Bool) (a : BitVec 7) (d : BitVec 7)
  /-- MATCH_W, R155. -/
  | matchLW (f : X3)
  /-- LSYNC, R157. -/
  | lsync
  /-- LSYNC_W, R157. -/
  | lsyncW (f : X3)
  /-- LD, R219. -/
  | ld (m : Bool) (b : BitVec 7) (a : BitVec 7) (d : BitVec 7)
  /-- LD_W, R219. -/
  | ldW (f : XM)
  /-- ST, R219. -/
  | st (b : BitVec 7) (a : BitVec 7) (d : BitVec 7)
  /-- ST_W, R219. -/
  | stW (f : XM)
  /-- LDRO, R209. -/
  | ldro (m : Bool) (b : BitVec 7) (a : BitVec 7) (d : BitVec 7)
  /-- LDRO_W, R209. -/
  | ldroW (f : XM)
  /-- LDS, R219. -/
  | lds (m : Bool) (b : BitVec 7) (a : BitVec 7) (d : BitVec 7)
  /-- LDS_W, R219. -/
  | ldsW (f : XM)
  /-- STS, R219. -/
  | sts (b : BitVec 7) (a : BitVec 7) (d : BitVec 7)
  /-- STS_W, R219. -/
  | stsW (f : XM)
  /-- MMA, R179. -/
  | mma (f : X3)
  /-- MMAG, R180. -/
  | mmag (f : X3)
  /-- MMAT, R181. -/
  | mmat (f : X3)
  /-- ACLR, R183. -/
  | aclr (f : X3)
  /-- ASCALE, R184. -/
  | ascale (f : X3)
  /-- ACVT, R185. -/
  | acvt (f : X3)
  /-- ATRN, R186. -/
  | atrn (f : X3)
  /-- APATCH, R187. -/
  | apatch (f : X3)
  /-- AWAIT, R188. -/
  | await (f : X3)
  /-- OBRES, R172. -/
  | obres (f : XE)
  /-- OBREL, R173. -/
  | obrel (f : X3)
  /-- OBLD, R174. -/
  | obld (f : XM)
  /-- OBSWAP, R175. -/
  | obswap (f : X3)
  /-- ATOM, R221. -/
  | atom (f : XM)
  /-- ATOMS, R221. -/
  | atoms (f : XM)
  /-- ATOMP, R221. -/
  | atomp (f : XM)
  /-- FENCE, R252. -/
  | fence (f : XM)
  /-- PREFB, R227. -/
  | prefb (f : XM)
  /-- CRDECL, R222. -/
  | crdecl (f : XM)
  /-- CRREL, R223. -/
  | crrel (f : XM)
  /-- INVL, R224. -/
  | invl (f : XM)
  /-- WBL, R224. -/
  | wbl (f : XM)
  /-- LHINT, R225. -/
  | lhint (f : XM)
  /-- PRES, R226. -/
  | pres (f : XM)
  /-- CPA, R272. -/
  | cpa (f : XE)
  /-- CPT, R273. -/
  | cpt (f : XE)
  /-- CPM, R274. -/
  | cpm (f : XE)
  /-- GATH, R275. -/
  | gath (f : XE)
  /-- SCAT, R276. -/
  | scat (f : XE)
  /-- RINIT, R282. -/
  | rinit (f : XE)
  /-- RAWAIT, R282. -/
  | rawait (f : XE)
  /-- RREL, R282. -/
  | rrel (f : XE)
  /-- BINIT, R286. -/
  | binit (f : XE)
  /-- BARV, R286. -/
  | barv (f : XE)
  /-- BEXP, R286. -/
  | bexp (f : XE)
  /-- BWAIT, R286. -/
  | bwait (f : XE)
  /-- BTEST, R286. -/
  | btest (f : XE)
  /-- COLL, R277. -/
  | coll (f : XE)
  /-- TKWAIT, R279. -/
  | tkwait (f : XE)
  /-- LAUNCH, R303. -/
  | launch (f : XE)
  /-- JOIN, R304. -/
  | join (f : XE)
  /-- SGSET, R306. -/
  | sgset (f : XS)
  /-- PRIO, R307. -/
  | prio (f : XS)
  /-- EVSIG, R305. -/
  | evsig (f : XE)
  /-- EVWAIT, R305. -/
  | evwait (f : XE)
  /-- CVTQ, R125. -/
  | cvtq (f : X3)
  /-- DQCB, R126. -/
  | dqcb (f : X3)
  /-- SAVEX, R336. -/
  | savex (f : XS)
  /-- RESTX, R336. -/
  | restx (f : XS)
  /-- WATCH, R354. -/
  | watch (f : XE)
  /-- UNWATCH, R354. -/
  | unwatch (f : XS)
  /-- EVMARK, R355. -/
  | evmark (f : XS)
  /-- RDCAP, R357. -/
  | rdcap (f : XS)
  /-- SRD, R338. -/
  | srd (f : XS)
  /-- SWR, R338. -/
  | swr (f : XS)
  /-- FREEZE, R356. -/
  | freeze (f : XS)
  /-- BKPT, R335. -/
  | bkpt (f : XS)
  /-- ARBITRATE, R143. -/
  | arbitrate (q : Nat)
  /-- WAIT_END, R144. -/
  | waitEnd (w : Nat)
  /-- SLEEP_EXPIRY, R110. -/
  | sleepExpiry (wid : Nat) (lane : Nat)
  /-- LOAD_RETURN, R200. -/
  | loadReturn (op : Nat)
  /-- ABSENT_LINE_DELIVERY, R204. -/
  | absentLineDelivery (op : Nat)
  /-- ATOMIC_RETURN, R221. -/
  | atomicReturn (op : Nat)
  /-- SFU_SERVICE, R131. -/
  | sfuService (q : Nat)
  /-- SFU_RESULT_WRITE, R131. -/
  | sfuResultWrite (q : Nat)
  /-- KSTEP_START, R168. -/
  | kstepStart (q : Nat)
  /-- KSTEP_WRITE, R168. -/
  | kstepWrite (q : Nat)
  /-- MMAT_RENDEZVOUS, R181. -/
  | mmatRendezvous (wid : Nat)
  /-- OBLD_COMPLETE, R174. -/
  | obldComplete (op : Nat)
  /-- WARP_RELEASE, R109. -/
  | warpRelease (wid : Nat)
  /-- PTS_CREEP, R233. -/
  | ptsCreep (wid : Nat)
  /-- CLOCK_TICK, R232. -/
  | clockTick (clk : Clock)
  /-- LOCAL_AGEING_SWEEP, R234. -/
  | localAgeingSweep (clk : Clock)
  /-- HOME_AGEING_SWEEP, R234. -/
  | homeAgeingSweep (qd : Nat)
  /-- LEASED_LOAD_REQUEST, R235. -/
  | leasedLoadRequest (req : Nat)
  /-- HOME_STORE, R237. -/
  | homeStore (req : Nat)
  /-- WRITE_BACK, R236. -/
  | writeBack (pt : Point) (line : Nat)
  /-- DIRTY_AGE_WRITEBACK, R236. -/
  | dirtyAgeWriteback (pt : Point) (line : Nat)
  /-- HOME_SLICE_ARBITRATION, R241. -/
  | homeSliceArbitration (line : Nat)
  /-- RETRY, R241. -/
  | retry (req : Nat)
  /-- DIEX_LEASE_GRANT, R240. -/
  | diexLeaseGrant (die : Nat) (line : Nat)
  /-- RECALL, R240. -/
  | recall (line : Nat)
  /-- TILE_TASK_START, R267. -/
  | tileTaskStart (eng : Nat) (ctx : Nat)
  /-- ENGINE_LINE_WRITE, R242. -/
  | engineLineWrite (eng : Nat) (ctx : Nat)
  /-- TILE_TASK_COMPLETE, R268. -/
  | tileTaskComplete (eng : Nat) (ctx : Nat)
  /-- TILE_TASK_ABORT, R269. -/
  | tileTaskAbort (eng : Nat) (ctx : Nat)
  /-- COLL_RENDEZVOUS, R278. -/
  | collRendezvous (eng : Nat) (ctx : Nat)
  /-- KEYSTONE_ARRIVAL, R285. -/
  | keystoneArrival (k : Nat)
  /-- KEYSTONE_RELEASE, R285. -/
  | keystoneRelease (k : Nat)
  /-- SUBMISSION_DOORBELL, R293. -/
  | submissionDoorbell (q : Nat) (v : BitVec 32)
  /-- RECORD_TAKE, R293. -/
  | recordTake (q : Nat)
  /-- BLOCK_PLACE, R299. -/
  | blockPlace
  /-- PRIORITY_PROMOTION, R292. -/
  | priorityPromotion (l : Nat)
  /-- CANDIDATE_RESERVE, R300. -/
  | candidateReserve (l : Nat)
  /-- LAUNCH_COMPLETE, R296. -/
  | launchComplete (l : Nat)
  /-- COMPLETION_ENTRY_POST, R294. -/
  | completionEntryPost (q : Nat)
  /-- COMPLETION_CONSUMER_INDEX, R294. -/
  | completionConsumerIndex (q : Nat) (v : BitVec 32)
  /-- HOST_EVENT_RAISE, R294. -/
  | hostEventRaise (ctx : Nat) (v : BitVec 64)
  /-- PARK, R301. -/
  | park (wid : Nat)
  /-- PARK_COMPLETE, R301. -/
  | parkComplete (wid : Nat)
  /-- UNPARK, R301. -/
  | unpark (wid : Nat)
  /-- EVWAIT_SPIN_LIMIT, R305. -/
  | evwaitSpinLimit (w : Nat)
  /-- FAULT_WAIT_LIMIT, R330. -/
  | faultWaitLimit (w : Nat)
  /-- TRAP_ENTRY, R315. -/
  | trapEntry (wid : Nat)
  /-- PREEMPT_REQUEST, R323. -/
  | preemptRequest (l : Nat)
  /-- GRACE_EXPIRY, R325. -/
  | graceExpiry (l : Nat)
  /-- FORCED_SAVE_COMPLETE, R325. -/
  | forcedSaveComplete (wid : Nat)
  /-- BLOCK_SCRATCHPAD_SAVE, R324. -/
  | blockScratchpadSave (b : Nat)
  /-- RESUME_ADMISSION, R324. -/
  | resumeAdmission (wid : Nat)
  /-- FATAL_FAULT, R332. -/
  | fatalFault (ctx : Nat)
  /-- DATAERR_LOAD, R331. -/
  | dataerrLoad (op : Nat)
  /-- PAGE_WALK, R330. -/
  | pageWalk (core : Nat) (ctx : Nat) (va : BitVec 56) (kind : Access)
  /-- FAULT_QUEUE_POST, R330. -/
  | faultQueuePost
  /-- FAULT_QUEUE_CONSUMER_INDEX, R330. -/
  | faultQueueConsumerIndex (v : BitVec 32)
  /-- REPLAY_DOORBELL, R330. -/
  | replayDoorbell (v : BitVec 32)
  /-- SERVICE_DOORBELL, R328. -/
  | serviceDoorbell (ctx : Nat) (v : BitVec 32)
  /-- TIMEBASE_WRAP, R340. -/
  | timebaseWrap (core : Nat)
  /-- FREEZE_REQUEST_ARRIVAL, R346. -/
  | freezeRequestArrival (core : Nat)
  /-- FREEZE_MESSAGE, R345. -/
  | freezeMessage (core : Nat)
  /-- CAPSULE_ASSEMBLY, R347. -/
  | capsuleAssembly
  /-- HOST_FREEZE_REQUEST, R344. -/
  | hostFreezeRequest
  /-- CAPSULE_RETRIEVE, R350. -/
  | capsuleRetrieve (tenant : BitVec 16) (cred : Credential)
  /-- CAPSULE_ACKNOWLEDGE, R350. -/
  | capsuleAcknowledge (fsn : BitVec 32) (cred : Credential)
  /-- LC_PERIODIC_FLUSH, R365. -/
  | lcPeriodicFlush (core : Nat)
  /-- DRAM_COMMAND_SLOT, R388. -/
  | dramCommandSlot (ch : Nat)
  /-- DRAM_ACCESS_COMPLETE, R388. -/
  | dramAccessComplete (ch : Nat)
  /-- HBM_ALERT, R386. -/
  | hbmAlert (ch : Nat)
  /-- SWAP_LINE_STEP, R390. -/
  | swapLineStep (id : Nat)
  /-- MIGRATION_LINE_COPY, R393. -/
  | migrationLineCopy (die : Nat)
  /-- NOTIFICATION_POST, R392. -/
  | notificationPost
  /-- HPNCONS_WRITE, R392. -/
  | hpnconsWrite (v : BitVec 32)
  /-- HOST_DATA_RESPONSE, R396. -/
  | hostDataResponse (line : Nat) (half : Bool) (data : BitVec 512) (excl : Bool)
  /-- HOME_EVICTION, R396. -/
  | homeEviction (line : Nat)
  /-- SNP_DATA, R397. -/
  | snpData (line : Nat) (half : Bool)
  /-- SNP_INV, R397. -/
  | snpInv (line : Nat) (half : Bool)
  /-- SNP_CUR, R397. -/
  | snpCur (line : Nat) (half : Bool)
  /-- MEM_RD, R398. -/
  | memRd (line : Nat) (half : Bool) (md : HostMeta)
  /-- MEM_WR, R398. -/
  | memWr (line : Nat) (half : Bool) (data : BitVec 512) (mask : BitVec 64) (md : HostMeta)
  /-- BI_RSP_S, R398. -/
  | biRspS (line : Nat) (half : Bool) (data : Option (BitVec 512))
  /-- BI_RSP_I, R398. -/
  | biRspI (line : Nat) (half : Bool) (data : Option (BitVec 512))
  /-- FUNCTION_LEVEL_RESET, R395. -/
  | functionLevelReset
  /-- FLIT_RECEIVE, R399. -/
  | flitReceive (port : Nat) (msg : LinkMsg)
  /-- CRC_ERROR_REPLAY, R399. -/
  | crcErrorReplay (port : Nat)
  /-- PORT_RETRAIN, R400. -/
  | portRetrain (port : Nat)
  /-- RETRAIN_TIMEOUT, R400. -/
  | retrainTimeout (port : Nat)
  /-- POSTED_WRITE_ACK, R253. -/
  | postedWriteAck (id : Nat)
  /-- POWER_GOOD, R415. -/
  | powerGood
  /-- HOST_LINK_TRAINED, R415. -/
  | hostLinkTrained (lanes : Nat) (rate : Nat)
  /-- HOST_LINK_TIMEOUT, R416. -/
  | hostLinkTimeout
  /-- MEMORY_TRAINED, R415. -/
  | memoryTrained
  /-- FIRMWARE_AUTHENTICATE, R418. -/
  | firmwareAuthenticate
  /-- FIRMWARE_IMAGE_LOAD, R418. -/
  | firmwareImageLoad (img : Image)
  /-- ROLLBACK_ADVANCE, R418. -/
  | rollbackAdvance (cred : Credential)
  /-- WARM_RESET, R415. -/
  | warmReset
  /-- COLD_RESET, R415. -/
  | coldReset
  /-- THROTTLE_UPDATE, R422. -/
  | throttleUpdate (pin : BitVec 16) (tout : BitVec 16)
  /-- THERMAL_ALERT, R422. -/
  | thermalAlert
  /-- PWRLIM_WRITE, R422. -/
  | pwrlimWrite (v : BitVec 64)
  /-- HCLK_WRITE, R338. -/
  | hclkWrite (qd : Nat) (v : BitVec 24)
  /-- TLBINV, R338. -/
  | tlbinv (ctx : Nat) (v : BitVec 64)
  /-- CTXEND, R338. -/
  | ctxend (ctx : Nat) (v : BitVec 32)
  /-- QBIND, R293. -/
  | qbind (v : BitVec 32)
  /-- LCBASE, R363. -/
  | lcbase (ctx : Nat) (v : BitVec 64)
  /-- LCFLUSH, R365. -/
  | lcflush (ctx : Nat)
  /-- LCCTL, R364. -/
  | lcctl (ctx : Nat) (v : BitVec 32)
  /-- KEYCTL_GENERATE, R385. -/
  | keyctlGenerate (slot : Nat)
  /-- KEYCTL_DESTROY, R385. -/
  | keyctlDestroy (slot : Nat)
  /-- KEYCTL_PLAIN, R385. -/
  | keyctlPlain (slot : Nat)
  /-- MISS_CLEAR, R403. -/
  | missClear (ctx : Nat) (n : Nat)
  /-- HPSEL, R403. -/
  | hpsel (ctx : Nat) (v : BitVec 64)
  /-- HPCNT, R403. -/
  | hpcnt (ctx : Nat) (v : BitVec 32)
  /-- MIGCMD, R393. -/
  | migcmd (v : BitVec 64)
  /-- SWAPCMD, R389. -/
  | swapcmd (v : BitVec 64)
  /-- CAUSKID, R401. -/
  | causkid (v : BitVec 32)
  /-- SYSREG_WRITE, R338. -/
  | sysregWrite (ctx : Nat) (sel : BitVec 16) (v : BitVec 64)
  /-- PORT_TRAINED, R400. -/
  | portTrained (port : Nat) (lanes : Nat)
  /-- LAUNCH_RESUME, R323. -/
  | launchResume (l : Nat)
  /-- POWER_LOSS, R347. -/
  | powerLoss
  deriving DecidableEq, Repr

end Sys2Proof
end

