-- ==== Sys2Proof/WellFormed.lean ====
section
/-! DEFINITION. Well-formedness: the encoding rules that depend on an instruction's own fields alone (R13, R52, R67 to R70
and the field tables of the entries). A term that breaks one is an encoding that is not an instruction (R79). The rules
that also depend on the thread (the allocation of R10, the alignment of R12, the position of R75, the header's guard of
R62) are judged where the instruction issues. -/

namespace Sys2Proof

/-- R13: a guard of P0 to P11, or 15 with sense 0. -/
def guardOk (g : BitVec 4) (s : BitVec 1) : Bool := decide (g.toNat < 12) || (g == 15 && s == 0)

/-- R69: a scope code. -/
def scopeOk (c : BitVec 6) : Bool := decide (c.toNat < 5) || decide (32 ≤ c.toNat)

/-- R217, R271: a scope code other than .wp. -/
def scopeWide (c : BitVec 6) : Bool := scopeOk c && c != 0

/-- R88: a predicate destination. -/
def predDst (n : Nat) : Bool := decide (n < 12)

/-- R88: a predicate source without negation. -/
def predSrc (n : Nat) : Bool := decide (n < 12) || n == 15

/-- R88: a predicate source with its negation in bit 4. -/
def predSrcNeg (n : Nat) : Bool := predSrc (n % 16) && decide (n < 32)

/-- R70: what an entry accepts in each field of X3; a field it does not use is zero. -/
structure X3Rule where
  d : Nat → Bool := (· == 0)
  a : Nat → Bool := (· == 0)
  b : Nat → Bool := (· == 0)
  c : Nat → Bool := (· == 0)
  scope : Nat → Bool := (· == 0)
  ovf : Nat → Bool := (· == 0)
  ty : Nat → Bool := (· == 0)
  rm : Nat → Bool := (· == 0)
  ftz : Bool := false
  fs : Bool := false

def X3.meets (f : X3) (r : X3Rule) : Bool :=
  guardOk f.guard f.sense && r.d f.d.toNat && r.a f.a.toNat && r.b f.b.toNat && r.c f.c.toNat &&
  r.scope f.scope.toNat && r.ovf f.ovf.toNat && r.ty f.ty.toNat && r.rm f.rm.toNat &&
  (r.ftz || f.ftz == 0) && (r.fs || f.fs == 0)

/-- Any value of a field. -/
def anyField (_ : Nat) : Bool := true

/-- A field that holds one of the listed values. -/
def oneOf (l : List Nat) (n : Nat) : Bool := l.contains n

/-- A field below a bound. -/
def under (k n : Nat) : Bool := decide (n < k)

def XI.meets (f : XI) (d a imm : Nat → Bool) : Bool :=
  guardOk f.guard f.sense && d f.d.toNat && a f.a.toNat && imm f.imm.toNat

/-- R70: what an entry accepts in each field of XM. -/
structure XMRule where
  d : Nat → Bool := (· == 0)
  a : Nat → Bool := (· == 0)
  b : Nat → Bool := (· == 0)
  c : Nat → Bool := (· == 0)
  var : Nat → Bool := (· == 0)
  size : Nat → Bool := (· == 0)
  scope : BitVec 6 → Bool := (· == 0)
  fs : Bool := false

def XM.meets (f : XM) (r : XMRule) : Bool :=
  guardOk f.guard f.sense && r.d f.d.toNat && r.a f.a.toNat && r.b f.b.toNat && r.c f.c.toNat &&
  r.var f.var.toNat && r.size f.size.toNat && r.scope f.scope && (r.fs || f.fs == 0)

/-- R70: what an entry accepts in each field of XE. -/
structure XERule where
  d : Nat → Bool := (· == 0)
  a : Nat → Bool := (· == 0)
  b : Nat → Bool := (· == 0)
  c : Nat → Bool := (· == 0)
  var8 : Nat → Bool := (· == 0)
  scope : BitVec 6 → Bool := (· == 0)
  fs : Bool := false

def XE.meets (f : XE) (r : XERule) : Bool :=
  guardOk f.guard f.sense && r.d f.d.toNat && r.a f.a.toNat && r.b f.b.toNat && r.c f.c.toNat &&
  r.var8 f.var8.toNat && r.scope f.scope && (r.fs || f.fs == 0)

def XS.meets (f : XS) (d a b c simm : Nat → Bool) : Bool :=
  guardOk f.guard f.sense && d f.d.toNat && a f.a.toNat && b f.b.toNat && c f.c.toNat && simm f.simm.toNat

/-- A field that is not used. -/
def zeroField (n : Nat) : Bool := n == 0

namespace X3Rule

/-- Destination and first source. -/
def da : X3Rule := { d := anyField, a := anyField }
/-- Destination and two sources. -/
def dab : X3Rule := { d := anyField, a := anyField, b := anyField }
/-- Destination and three sources. -/
def dabc : X3Rule := { d := anyField, a := anyField, b := anyField, c := anyField }
/-- R90: .i32 or .n32. -/
def int (r : X3Rule) : X3Rule := { r with ty := under 2 }
/-- R91: .sat. -/
def sat (r : X3Rule) : X3Rule := { r with ovf := under 2 }
/-- R113: a rounding operation with .sat and FTZ. -/
def round (r : X3Rule) (ty : List Nat) : X3Rule := { r with ty := oneOf ty, rm := anyField, ovf := under 2, ftz := true }
/-- R113: an operation that does not round but may flush. -/
def flush (r : X3Rule) (ty : List Nat) : X3Rule := { r with ty := oneOf ty, ftz := true }
/-- R127: a special function. -/
def special : X3Rule := { da with ty := oneOf [2], ftz := true, fs := true }

end X3Rule

/-- R51, R52: an overflow modifier towards a format: .inf only towards E5M2. -/
def ovfOk (ovf : Nat) (dst : Nat) : Bool := decide (ovf < 2) || (ovf == 2 && dst == 12)

/-- R102: the integer type codes. -/
def intTypes : List Nat := [0, 1, 3, 4, 7, 8, 9, 10]

/-- R124: the floating-point type codes. -/
def floatTypes : List Nat := [2, 5, 6, 11, 12, 13]

/-- R103: the pairings of PACK. -/
def packOk (f : X3) : Bool :=
  let t := f.ty.toNat
  let u := f.scope.toNat
  ((oneOf [0, 1] t && oneOf [7, 8] u || oneOf [7, 8] t && oneOf [9, 10] u) &&
    under 2 f.ovf.toNat && f.rm == 0 && f.ftz == 0) ||
  ((t == 2 && oneOf [5, 6] u || oneOf [5, 6] t && oneOf [11, 12] u) && ovfOk f.ovf.toNat u)

/-- R104: the pairings of UNPACK. -/
def unpackOk (f : X3) : Bool :=
  let t := f.ty.toNat
  let u := f.scope.toNat
  ((t == 7 && u == 0 || t == 8 && u == 1 || t == 9 && u == 7 || t == 10 && u == 8) && f.ftz == 0) ||
  (oneOf [5, 6] t && u == 2) || (oneOf [11, 12, 13] t && oneOf [5, 6] u)

/-- R124: the pairings of F2F. -/
def f2fOk (f : X3) : Bool :=
  let t := f.ty.toNat
  let u := f.scope.toNat
  (oneOf floatTypes t && oneOf floatTypes u || t == 15 && u == 2) && ovfOk f.ovf.toNat u

/-- R150: the pairings of REDUX and SCAN. -/
def reduceOk (f : X3) : Bool :=
  under 3 f.ty.toNat && under 6 f.b.toNat &&
  (f.ty == 2 || f.rm == 0 && f.ftz == 0) && !(f.ty == 2 && decide (3 ≤ f.b.toNat)) && (f.rm == 0 || f.b == 0)

/-- R147: the mask operand: SCOPE[1] selects the full mask and C is then zero. -/
def maskOk (f : X3) : Bool := !f.scope.getLsbD 1 || f.c == 0

/-- A form in which every field is judged by a rule of its own. -/
def X3Rule.free : X3Rule :=
  { d := anyField, a := anyField, b := anyField, c := anyField, scope := anyField, ovf := under 3,
    ty := anyField, rm := anyField, ftz := true, fs := false }

/-- R179: A from a reservation or from registers. -/
def mmaOk (f : X3) : Bool :=
  decide (128 ≤ f.d.toNat) && decide (f.b.toNat < 8) &&
  (if f.c.getLsbD 7 then f.a == 0 && f.ty == 0 && decide (f.c.toNat < 136)
   else decide (f.a.toNat < 128) && f.c == 0 && oneOf [5, 6, 9, 11, 12, 13, 14] f.ty.toNat)

/-- R76, R88, R105, R150: the rule of the 32-bit forms whose D, A or B is a code. -/
def predField7 (d : BitVec 7) : Bool := predDst (d.toNat % 16)

/-- R271: the completion operand of an engine command. -/
def completionOk (f : XE) : Bool :=
  decide (f.var8.toNat % 4 < 3) && (f.var8.toNat % 4 != 0 || f.c == 0)

/-- R271: the common fields of CPT, GATH and SCAT. -/
def engineRule (var8 : Nat → Bool) : XERule :=
  { d := anyField, a := anyField, c := anyField, var8 := var8, scope := scopeWide, fs := true }


/-- R70, R76, R88, R105, R150: the 32-bit form of an opcode with these fields is an instruction; `false` too for an opcode
with no 32-bit form. -/
def ok32 (opc : Nat) (m : Bool) (b a d : BitVec 7) : Bool :=
  match opc with
  | 0 => !m && b == 0 && a == 0 && d == 0
  | 1 => !m
  | 2 => !m && b == 0 && d == 0
  | 3 => !m
  | 4 => !m && b == 0 && d == 0
  | 5 => !m && b == 0 && a == 0 && d == 0
  | 6 => !m && decide (a.toNat % 4 < 3) && decide (3 ≤ b.toNat * 32 + a.toNat / 4) && decide (b.toNat * 32 + a.toNat / 4 ≤ 1536)
  | 7 => !m && b == 0 && a == 0 && decide (d.toNat < 3)
  | 8 => !m && b == 0 && a == 0 && d == 0
  | 9 => !m && b == 0 && a == 0 && d == 0
  | 10 => !m && d == 0 && decide (a.toNat % 4 = 0)
  | 11 => !m && a == 0
  | 12 => !m && a == 0 && d == 0 && decide (1 ≤ b.toNat) && decide (b.toNat < 6)
  | 13 => !m && a == 0 && d == 0 && decide (b.toNat < 2)
  | 14 => !m && d == 0
  | 15 => (m || a == 0 && d == 0)
  | 16 => b == 0 && a == 0 && d == 0
  | 17 => !m && b == 0 && a == 0 && d == 0
  | 18 => !m && predDst (d.toNat % 16) && decide (d.toNat / 32 < 3) && predSrcNeg a.toNat && predSrcNeg b.toNat
  | 19 => (if m then d == 0 else a == 0 && b == 0)
  | 20 => !m && decide (d.toNat < 12)
  | 21 => !m && b == 0
  | 22 => true
  | 23 => !m && a == d
  | 24 => !m
  | 25 => true
  | 26 => true
  | 27 => predField7 d
  | 32 => !m
  | 33 => !m
  | 34 => !m
  | 35 => !m
  | 36 => !m
  | 37 => true
  | 38 => !m
  | 39 => true
  | 40 => !m && b == 0
  | 41 => !m && b == 0
  | 42 => true
  | 43 => true
  | 44 => !m && b == 0
  | 45 => !m && b == 0
  | 46 => !m && b == 0
  | 47 => !m && b == 0
  | 48 => !m
  | 49 => !m
  | 50 => !m
  | 51 => !m
  | 52 => !m && b == 0
  | 53 => !m
  | 54 => !m
  | 55 => !m
  | 56 => !m
  | 57 => true
  | 58 => !m
  | 59 => !m
  | 64 => !m
  | 65 => !m
  | 66 => !m
  | 67 => !m
  | 68 => !m
  | 69 => !m
  | 70 => !m
  | 71 => !m
  | 72 => !m
  | 73 => !m
  | 74 => !m
  | 75 => !m
  | 76 => predField7 d
  | 77 => !m
  | 78 => !m
  | 80 => !m
  | 81 => !m
  | 82 => !m
  | 83 => predField7 d
  | 84 => !m
  | 85 => b == 0
  | 86 => b == 0
  | 87 => b == 0
  | 88 => true
  | 89 => b == 0
  | 96 => !m
  | 97 => !m
  | 98 => !m
  | 99 => !m
  | 100 => !m
  | 101 => !m
  | 102 => !m
  | 103 => predField7 d && !(decide (6 ≤ d.toNat / 16) && m)
  | 104 => !m && b == 0
  | 105 => !m && b == 0
  | 106 => !m
  | 107 => !m && b == 0
  | 108 => !m && b == 0
  | 109 => true
  | 112 => true
  | 113 => true
  | 114 => true
  | 115 => true
  | 116 => true
  | 117 => true
  | 118 => true
  | 128 => b == 0
  | 129 => b == 0
  | 130 => b == 0
  | 131 => b == 0
  | 132 => b == 0
  | 133 => b == 0
  | 134 => b == 0
  | 135 => b == 0
  | 136 => b == 0
  | 137 => b == 0
  | 138 => b == 0
  | 144 => true
  | 145 => decide (b.toNat < 5)
  | 146 => b == 0 && predSrcNeg a.toNat && (!m || decide (d.toNat < 12))
  | 147 => decide (b.toNat < 6) && !(m && decide (3 ≤ b.toNat))
  | 148 => decide (b.toNat < 6)
  | 149 => b == 0
  | 150 => !m && b == 0 && a == 0 && d == 0
  | 160 => true
  | 161 => !m
  | 162 => true
  | 163 => true
  | 164 => !m
  | _ => false

/-- R67, R70 and the field tables of the entries: an X3 form of an opcode is an instruction. HMAX2 and HMIN2 take rounding mode 0 and
OVF 0, as FMAX and FMIN do: log entry 43 reads R122. -/
def X3.ok (opc : Nat) (f : X3) : Bool :=
  match opc with
  | 2 =>
      f.meets { a := anyField }
  | 4 =>
      f.meets { a := anyField }
  | 5 =>
      f.meets {}
  | 7 =>
      f.meets { d := under 3 }
  | 8 =>
      f.meets {}
  | 9 =>
      f.meets {}
  | 12 =>
      f.meets { b := oneOf [1, 2, 3, 4, 5] }
  | 13 =>
      f.meets { b := under 2 }
  | 18 =>
      f.meets { d := fun n => predDst (n % 16) && decide (n / 32 < 3), a := predSrcNeg, b := predSrcNeg }
  | 19 =>
      f.meets { d := anyField, a := anyField, b := anyField, scope := under 2 } &&
      (if f.scope == 1 then f.d == 0 else f.a == 0 && f.b == 0)
  | 20 =>
      f.meets { d := predDst, a := anyField, b := anyField }
  | 21 =>
      f.meets .da
  | 22 =>
      f.meets { X3Rule.dab with c := predSrc, scope := under 2 }
  | 23 =>
      f.meets .dab && f.a == f.d
  | 25 =>
      f.meets { X3Rule.dab with c := under 8, scope := under 2 }
  | 26 =>
      f.meets X3Rule.dab.int
  | 27 =>
      f.meets { X3Rule.dab.int with d := fun n => predDst (n % 16) && decide (n < 128) }
  | 32 =>
      f.meets X3Rule.dab.int.sat
  | 33 =>
      f.meets X3Rule.dab.int.sat
  | 34 =>
      f.meets { X3Rule.dab.int with c := predSrc }
  | 35 =>
      f.meets { X3Rule.dab.int with c := predSrc }
  | 36 =>
      f.meets X3Rule.dab.int.sat
  | 37 =>
      f.meets X3Rule.dab.int
  | 38 =>
      f.meets X3Rule.dabc.int.sat
  | 39 =>
      f.meets X3Rule.dabc.int
  | 40 =>
      f.meets X3Rule.da.sat
  | 41 =>
      f.meets X3Rule.da.sat
  | 42 =>
      f.meets X3Rule.dab.int
  | 43 =>
      f.meets X3Rule.dab.int
  | 44 =>
      f.meets .da
  | 45 =>
      f.meets .da
  | 46 =>
      f.meets .da
  | 47 =>
      f.meets .da
  | 48 =>
      f.meets .dab
  | 49 =>
      f.meets .dab
  | 50 =>
      f.meets .dab
  | 51 =>
      f.meets .dab
  | 52 =>
      f.meets .da
  | 53 =>
      f.meets .dab
  | 54 =>
      f.meets .dab
  | 55 =>
      f.meets .dab
  | 56 =>
      f.meets .dabc
  | 57 =>
      f.meets X3Rule.dab.int
  | 58 =>
      f.meets .dabc
  | 59 =>
      f.meets .dabc
  | 80 =>
      f.meets .dab
  | 81 =>
      f.meets .dab
  | 82 =>
      f.meets .dab
  | 83 =>
      f.meets { X3Rule.dab with d := fun n => predDst (n % 16) && decide (n < 128), ty := oneOf [3, 4] }
  | 84 =>
      f.meets X3Rule.dabc.int
  | 85 =>
      f.meets { X3Rule.da with ty := oneOf intTypes, scope := oneOf [2, 5, 6], ovf := under 2, rm := anyField }
  | 86 =>
      f.meets { X3Rule.da with ty := oneOf [2, 5, 6], scope := oneOf intTypes, rm := anyField, ftz := true }
  | 87 =>
      f.meets { X3Rule.free with b := zeroField, c := zeroField } && f2fOk f
  | 88 =>
      f.meets { X3Rule.free with c := zeroField } && packOk f
  | 89 =>
      f.meets { X3Rule.free with b := zeroField, c := zeroField, rm := zeroField, ovf := zeroField } && unpackOk f
  | 96 =>
      f.meets (X3Rule.dab.round [2])
  | 97 =>
      f.meets (X3Rule.dab.round [2])
  | 98 =>
      f.meets (X3Rule.dab.round [2])
  | 99 =>
      f.meets (X3Rule.dabc.round [2])
  | 100 =>
      f.meets (X3Rule.dab.flush [2])
  | 101 =>
      f.meets (X3Rule.dab.flush [2])
  | 102 =>
      f.meets (X3Rule.dab.flush [2])
  | 103 =>
      f.meets { X3Rule.dab.flush [2] with d := fun n => predDst (n % 16) && !(decide (6 ≤ n / 16 % 8) && decide (128 ≤ n)) }
  | 104 =>
      f.meets { X3Rule.da.flush [2] with rm := anyField }
  | 105 =>
      f.meets { X3Rule.da with ty := oneOf [2, 5, 6] }
  | 106 =>
      f.meets (X3Rule.dab.round [2])
  | 107 =>
      f.meets (X3Rule.da.flush [2])
  | 108 =>
      f.meets (X3Rule.da.flush [2])
  | 109 =>
      f.meets { X3Rule.dab with scope := under 2 }
  | 112 =>
      f.meets (X3Rule.dab.round [5, 6])
  | 113 =>
      f.meets (X3Rule.dab.round [5, 6])
  | 114 =>
      f.meets (X3Rule.dab.round [5, 6])
  | 115 =>
      f.meets (X3Rule.dabc.round [5, 6])
  | 116 =>
      f.meets (X3Rule.dab.flush [5, 6])
  | 117 =>
      f.meets (X3Rule.dab.flush [5, 6])
  | 118 =>
      f.meets (X3Rule.dabc.round [5, 6])
  | 128 =>
      f.meets .special
  | 129 =>
      f.meets .special
  | 130 =>
      f.meets .special
  | 131 =>
      f.meets .special
  | 132 =>
      f.meets .special
  | 133 =>
      f.meets .special
  | 134 =>
      f.meets .special
  | 135 =>
      f.meets .special
  | 136 =>
      f.meets .special
  | 137 =>
      f.meets { X3Rule.special with rm := anyField }
  | 138 =>
      f.meets .special
  | 144 =>
      f.meets { X3Rule.dabc with rm := anyField, scope := oneOf [0, 2] } && maskOk f
  | 145 =>
      f.meets { X3Rule.dabc with b := under 5, ty := if f.scope.getLsbD 0 then oneOf [2, 5, 6] else zeroField, scope := under 4 } && maskOk f
  | 146 =>
      f.meets { d := if f.rm == 0 then anyField else predDst, a := predSrcNeg, c := anyField, rm := anyField, scope := oneOf [0, 2] } && maskOk f
  | 147 =>
      f.meets { X3Rule.free with ovf := zeroField, scope := oneOf [0, 2] } && maskOk f && reduceOk f
  | 148 =>
      f.meets { X3Rule.free with ovf := zeroField, scope := under 4 } && maskOk f && reduceOk f
  | 149 =>
      f.meets { X3Rule.dabc with b := zeroField, scope := under 4 } && maskOk f
  | 150 =>
      f.meets { c := anyField, scope := oneOf [0, 2] } && maskOk f
  | 256 =>
      f.meets { X3Rule.free with ovf := zeroField, rm := zeroField, ftz := false, fs := true } && mmaOk f
  | 257 =>
      f.meets { X3Rule.dabc with b := oneOf [1, 2, 3, 4, 5, 6, 7, 8], scope := anyField, fs := true } &&
      decide (128 ≤ f.d.toNat) && decide (128 ≤ f.c.toNat) && decide (f.c.toNat < 136)
  | 258 =>
      f.meets { X3Rule.dabc with b := under 8, scope := oneOf [0, 32], fs := true } &&
      decide (128 ≤ f.d.toNat) && decide (128 ≤ f.c.toNat) && decide (f.c.toNat < 136)
  | 259 =>
      f.meets { d := anyField, c := anyField } && decide (128 ≤ f.d.toNat) && decide (1 ≤ f.c.toNat) && decide (f.c.toNat ≤ 128)
  | 260 =>
      f.meets { d := anyField, a := under 128, c := anyField, scope := under 2 } &&
      decide (128 ≤ f.d.toNat) && decide (1 ≤ f.c.toNat) && decide (f.c.toNat ≤ 128)
  | 261 =>
      f.meets { d := under 128, a := anyField, c := anyField, ty := oneOf [5, 6, 9, 11, 12, 13], rm := anyField, ovf := under 3, ftz := true } &&
      decide (128 ≤ f.a.toNat) && decide (1 ≤ f.c.toNat) && decide (f.c.toNat ≤ 128) &&
      ovfOk f.ovf.toNat f.ty.toNat && (f.ty != 9 || f.rm == 0 && f.ftz == 0)
  | 262 =>
      f.meets { d := under 97, a := oneOf [128, 160, 192, 224] }
  | 263 =>
      f.meets { d := anyField, a := under 128, b := anyField, c := if f.scope.getLsbD 2 then anyField else zeroField, scope := under 8 } && decide (128 ≤ f.d.toNat)
  | 264 =>
      f.meets {}
  | 266 =>
      f.meets { b := under 8 }
  | 268 =>
      f.meets { b := under 8 }
  | 312 =>
      f.meets { X3Rule.dabc.round [2, 5, 6] with b := zeroField, scope := fun n => oneOf [11, 12, 13] (n % 16) && decide (n < 32) }
  | 313 =>
      f.meets { X3Rule.dabc.round [14] with c := under 8, scope := fun n => oneOf [5, 6] (n % 16) && decide (n < 32) }
  | _ => false

/-- R67, R70 and the field tables of the entries: an XI form of an opcode is an instruction. -/
def XI.ok (opc : Nat) (f : XI) : Bool :=
  match opc with
  | 1 =>
      f.meets zeroField zeroField anyField
  | 3 =>
      f.meets zeroField zeroField anyField
  | 6 =>
      f.meets anyField (under 3) (fun n => decide (3 ≤ n) && decide (n ≤ 1536))
  | 10 =>
      f.meets zeroField zeroField (under 4096)
  | 11 =>
      f.meets anyField zeroField (under 128)
  | 14 =>
      f.meets zeroField zeroField anyField
  | 24 =>
      f.meets anyField zeroField anyField
  | 64 =>
      f.meets anyField anyField anyField
  | 65 =>
      f.meets anyField anyField anyField
  | 66 =>
      f.meets anyField anyField anyField
  | 67 =>
      f.meets anyField anyField anyField
  | 68 =>
      f.meets anyField anyField anyField
  | 69 =>
      f.meets anyField anyField anyField
  | 70 =>
      f.meets anyField anyField anyField
  | 71 =>
      f.meets anyField anyField anyField
  | 72 =>
      f.meets anyField anyField anyField
  | 73 =>
      f.meets anyField anyField anyField
  | 74 =>
      f.meets anyField anyField anyField
  | 75 =>
      f.meets anyField anyField anyField
  | 76 =>
      f.meets (fun n => predDst (n % 16)) anyField anyField
  | 77 =>
      f.meets anyField anyField anyField
  | 78 =>
      f.meets anyField anyField anyField
  | _ => false

/-- R67, R70 and the field tables of the entries: an XM form of an opcode is an instruction. -/
def XM.ok (opc : Nat) (f : XM) : Bool :=
  match opc with
  | 160 =>
      f.meets { d := anyField, a := anyField, c := anyField, size := under 5, fs := true, var := fun n => n / 2 % 4 != 3 && (decide (n < 8) || decide (f.size.toNat < 2)) }
  | 161 =>
      f.meets { d := anyField, a := anyField, c := anyField, size := under 5, var := under 2 }
  | 162 =>
      f.meets { d := anyField, a := anyField, c := anyField, size := under 5, fs := true, var := fun n => n == 0 || (n == 8 && decide (f.size.toNat < 2)) }
  | 163 =>
      f.meets { d := anyField, a := anyField, c := anyField, size := under 5, fs := true, var := fun n => n < 2 || ((n == 8 || n == 9) && decide (f.size.toNat < 2)) }
  | 164 =>
      f.meets { d := anyField, a := anyField, c := anyField, size := under 5, var := under 2 }
  | 267 =>
      f.meets { d := under 8, a := anyField, b := anyField, c := anyField, var := under 8, fs := true }
  | 272 =>
      f.meets { d := anyField, a := anyField, b := anyField, var := fun n => decide (n < 12) || (n == 12 && f.size == 2), size := oneOf [2, 3], scope := scopeWide, fs := true }
  | 273 =>
      f.meets { d := anyField, a := anyField, b := anyField, c := under 2, size := oneOf [2, 3], fs := true, var := fun n => decide (n < 12) || (n == 12 && f.size == 2) } && (f.c == 0 || f.d == 0 && f.fs == 0)
  | 274 =>
      f.meets { a := anyField, b := anyField, size := oneOf [2, 3], scope := scopeWide, var := fun n => decide (n < 9) || n == 11 || (n == 12 && f.size == 2) }
  | 275 =>
      f.meets { d := if f.var.getLsbD 2 then anyField else zeroField, var := under 8, scope := scopeOk }
  | 276 =>
      f.meets { d := anyField, a := anyField, b := anyField, c := anyField, var := under 4 }
  | 277 =>
      f.meets { d := under 64, a := anyField, b := anyField, c := anyField }
  | 278 =>
      f.meets { d := under 64 }
  | 279 =>
      f.meets { a := anyField, b := anyField, scope := scopeWide }
  | 280 =>
      f.meets { a := anyField, b := anyField, scope := scopeWide }
  | 281 =>
      f.meets { a := anyField, b := anyField, var := under 5 }
  | 282 =>
      f.meets { d := if f.var == 0 then anyField else zeroField, a := anyField, b := anyField, var := under 3 }
  | _ => false

/-- R67, R70 and the field tables of the entries: an XE form of an opcode is an instruction. -/
def XE.ok (opc : Nat) (f : XE) : Bool :=
  match opc with
  | 265 =>
      f.meets { a := anyField, var8 := under 8 }
  | 288 =>
      f.meets { d := if f.var8.getLsbD 2 then anyField else zeroField, a := anyField, b := anyField, c := anyField, scope := scopeWide, fs := true, var8 := fun n => n / 16 % 2 == 0 && n / 32 % 4 != 3 && decide (n < 128) } && completionOk f
  | 289 =>
      f.meets (engineRule (under 32)) && completionOk f && (f.var8.getLsbD 4 || f.d == 0)
  | 290 =>
      f.meets (engineRule (under 16)) && completionOk f && f.d == 0
  | 291 =>
      f.meets (engineRule (under 32)) && completionOk f && (f.var8.getLsbD 4 || f.d == 0)
  | 292 =>
      f.meets (engineRule (fun n => decide (n < 16) && n / 4 % 2 == 0)) && completionOk f && f.d == 0
  | 293 =>
      f.meets { a := anyField, b := anyField, c := anyField }
  | 294 =>
      f.meets { d := anyField, a := anyField }
  | 295 =>
      f.meets { a := anyField }
  | 296 =>
      f.meets { a := anyField, b := anyField, var8 := under 8 }
  | 297 =>
      f.meets { d := anyField, a := anyField, b := if f.var8 == 1 then anyField else zeroField, var8 := under 2 }
  | 298 =>
      f.meets { a := anyField, b := anyField }
  | 299 =>
      f.meets { a := anyField, b := anyField }
  | 300 =>
      f.meets { d := predDst, a := anyField, b := anyField }
  | 301 =>
      f.meets (engineRule (under 3)) && completionOk f && f.d == 0
  | 302 =>
      f.meets { d := if f.var8 == 1 then anyField else zeroField, a := anyField, var8 := under 2 }
  | 304 =>
      f.meets { d := anyField, a := anyField, var8 := under 2 }
  | 305 =>
      f.meets { b := anyField }
  | 308 =>
      f.meets { b := anyField, c := anyField, scope := scopeWide }
  | 309 =>
      f.meets { b := anyField, c := anyField, scope := scopeWide }
  | 322 =>
      f.meets { a := anyField, var8 := under 16 }
  | _ => false

/-- R67, R70 and the field tables of the entries: an XS form of an opcode is an instruction. -/
def XS.ok (opc : Nat) (f : XS) : Bool :=
  match opc with
  | 0 =>
      f.meets zeroField zeroField zeroField zeroField zeroField
  | 15 =>
      if f.simm.getLsbD 8 then f.meets anyField anyField zeroField zeroField (fun n => n / 256 == 1)
      else f.meets zeroField zeroField zeroField zeroField (under 256)
  | 16 =>
      f.meets zeroField zeroField zeroField zeroField (under 2)
  | 17 =>
      f.meets zeroField zeroField zeroField zeroField zeroField
  | 306 =>
      f.meets zeroField anyField zeroField zeroField (under 32)
  | 307 =>
      f.meets zeroField zeroField zeroField zeroField (under 4)
  | 320 =>
      f.meets zeroField anyField zeroField (under 2) anyField
  | 321 =>
      f.meets zeroField anyField zeroField (under 2) anyField
  | 323 =>
      f.meets zeroField zeroField zeroField zeroField (under 17)
  | 324 =>
      f.meets zeroField anyField zeroField zeroField (under 256)
  | 325 =>
      f.meets anyField zeroField anyField zeroField zeroField
  | 326 =>
      f.meets anyField zeroField zeroField zeroField anyField
  | 327 =>
      f.meets zeroField zeroField anyField zeroField anyField
  | 328 =>
      f.meets zeroField zeroField zeroField zeroField (under 512)
  | 329 =>
      f.meets zeroField zeroField zeroField zeroField (under 256)
  | _ => false

/-- Every field of the instruction holds a value that its entry accepts. A step of the part carries no encoding. -/
def Instr.wf : Instr → Bool
  | .mov16 _ _ => true
  | .iadd16 _ _ => true
  | .isub16 _ _ => true
  | .imul16 _ _ => true
  | .and16 _ _ => true
  | .or16 _ _ => true
  | .xor16 _ _ => true
  | .shl16 _ _ => true
  | .shr16 _ _ => true
  | .sar16 _ _ => true
  | .fadd16 _ _ => true
  | .fsub16 _ _ => true
  | .fmul16 _ _ => true
  | .fmax16 _ _ => true
  | .fmin16 _ _ => true
  | .hadd216 _ _ => true
  | .nop => ok32 0 false 0 0 0
  | .nopW f => XS.ok 0 f
  | .bra _ => true
  | .braW f => XI.ok 1 f
  | .brx a => ok32 2 false 0 a 0
  | .brxW f => X3.ok 2 f
  | .call _ => true
  | .callW f => XI.ok 3 f
  | .callx a => ok32 4 false 0 a 0
  | .callxW f => X3.ok 4 f
  | .ret => ok32 5 false 0 0 0
  | .retW f => X3.ok 5 f
  | .loop off lcn _ => decide (lcn.toNat < 3) && decide (3 ≤ off.toNat) && decide (off.toNat ≤ 1536)
  | .loopW f => XI.ok 6 f
  | .lbrk d => ok32 7 false 0 0 d
  | .lbrkW f => X3.ok 7 f
  | .exit => ok32 8 false 0 0 0
  | .exitW f => X3.ok 8 f
  | .yield => ok32 9 false 0 0 0
  | .yieldW f => X3.ok 9 f
  | .waitf _ => true
  | .waitfW f => XI.ok 10 f
  | .sval s d => ok32 11 false s 0 d
  | .svalW f => XI.ok 11 f
  | .partset b => decide (1 ≤ b.toNat) && decide (b.toNat < 6)
  | .partsetW f => X3.ok 12 f
  | .modeM => true
  | .modeV => true
  | .modeW f => X3.ok 13 f
  | .sleep _ => true
  | .sleepW f => XI.ok 14 f
  | .trap n => ok32 15 false n 0 0
  | .trapSvc n a d => ok32 15 true n a d
  | .trapW f => XS.ok 15 f && f.simm.getLsbD 8 == false
  | .trapSvcW f => XS.ok 15 f && f.simm.getLsbD 8 == true
  | .tret m => ok32 16 m 0 0 0
  | .tretW f => XS.ok 16 f
  | .preack => ok32 17 false 0 0 0
  | .preackW f => XS.ok 17 f
  | .plop b a d => ok32 18 false b a d
  | .plopW f => X3.ok 18 f
  | .pmov m b a d => ok32 19 m b a d
  | .pmovW f => X3.ok 19 f
  | .pset b a d => ok32 20 false b a d
  | .psetW f => X3.ok 20 f
  | .pcnt a d => ok32 21 false 0 a d
  | .pcntW f => X3.ok 21 f
  | .sel m b a d => ok32 22 m b a d
  | .selW f => X3.ok 22 f
  | .mov b a d => ok32 23 false b a d
  | .movW f => X3.ok 23 f
  | .movi _ _ => true
  | .moviW f => XI.ok 24 f
  | .lea m b a d => ok32 25 m b a d
  | .leaW f => X3.ok 25 f
  | .icmp m b a d => ok32 26 m b a d
  | .icmpW f => X3.ok 26 f
  | .icmpp m b a d => ok32 27 m b a d
  | .icmppW f => X3.ok 27 f
  | .iadd b a d => ok32 32 false b a d
  | .iaddW f => X3.ok 32 f
  | .isub b a d => ok32 33 false b a d
  | .isubW f => X3.ok 33 f
  | .iaddc b a d => ok32 34 false b a d
  | .iaddcW f => X3.ok 34 f
  | .isubb b a d => ok32 35 false b a d
  | .isubbW f => X3.ok 35 f
  | .imul b a d => ok32 36 false b a d
  | .imulW f => X3.ok 36 f
  | .imulh m b a d => ok32 37 m b a d
  | .imulhW f => X3.ok 37 f
  | .imad b a d => ok32 38 false b a d
  | .imadW f => X3.ok 38 f
  | .imadw m b a d => ok32 39 m b a d
  | .imadwW f => X3.ok 39 f
  | .ineg a d => ok32 40 false 0 a d
  | .inegW f => X3.ok 40 f
  | .iabs a d => ok32 41 false 0 a d
  | .iabsW f => X3.ok 41 f
  | .imin m b a d => ok32 42 m b a d
  | .iminW f => X3.ok 42 f
  | .imax m b a d => ok32 43 m b a d
  | .imaxW f => X3.ok 43 f
  | .popc a d => ok32 44 false 0 a d
  | .popcW f => X3.ok 44 f
  | .clz a d => ok32 45 false 0 a d
  | .clzW f => X3.ok 45 f
  | .ctz a d => ok32 46 false 0 a d
  | .ctzW f => X3.ok 46 f
  | .brev a d => ok32 47 false 0 a d
  | .brevW f => X3.ok 47 f
  | .and b a d => ok32 48 false b a d
  | .andW f => X3.ok 48 f
  | .or b a d => ok32 49 false b a d
  | .orW f => X3.ok 49 f
  | .xor b a d => ok32 50 false b a d
  | .xorW f => X3.ok 50 f
  | .andn b a d => ok32 51 false b a d
  | .andnW f => X3.ok 51 f
  | .not a d => ok32 52 false 0 a d
  | .notW f => X3.ok 52 f
  | .shl b a d => ok32 53 false b a d
  | .shlW f => X3.ok 53 f
  | .shr b a d => ok32 54 false b a d
  | .shrW f => X3.ok 54 f
  | .sar b a d => ok32 55 false b a d
  | .sarW f => X3.ok 55 f
  | .shf b a d => ok32 56 false b a d
  | .shfW f => X3.ok 56 f
  | .bfx m b a d => ok32 57 m b a d
  | .bfxW f => X3.ok 57 f
  | .bfi b a d => ok32 58 false b a d
  | .bfiW f => X3.ok 58 f
  | .prmt b a d => ok32 59 false b a d
  | .prmtW f => X3.ok 59 f
  | .iaddImm i a d => ok32 64 false i a d
  | .iaddImmW f => XI.ok 64 f
  | .isubImm i a d => ok32 65 false i a d
  | .isubImmW f => XI.ok 65 f
  | .imulImm i a d => ok32 66 false i a d
  | .imulImmW f => XI.ok 66 f
  | .andImm i a d => ok32 67 false i a d
  | .andImmW f => XI.ok 67 f
  | .orImm i a d => ok32 68 false i a d
  | .orImmW f => XI.ok 68 f
  | .xorImm i a d => ok32 69 false i a d
  | .xorImmW f => XI.ok 69 f
  | .shlImm i a d => ok32 70 false i a d
  | .shlImmW f => XI.ok 70 f
  | .shrImm i a d => ok32 71 false i a d
  | .shrImmW f => XI.ok 71 f
  | .sarImm i a d => ok32 72 false i a d
  | .sarImmW f => XI.ok 72 f
  | .iminImm i a d => ok32 73 false i a d
  | .iminImmW f => XI.ok 73 f
  | .imaxImm i a d => ok32 74 false i a d
  | .imaxImmW f => XI.ok 74 f
  | .icmpImm i a d => ok32 75 false i a d
  | .icmpImmW f => XI.ok 75 f
  | .icmppImm m i a d => ok32 76 m i a d
  | .icmppImmW f => XI.ok 76 f
  | .leaImm i a d => ok32 77 false i a d
  | .leaImmW f => XI.ok 77 f
  | .add64Imm i a d => ok32 78 false i a d
  | .add64ImmW f => XI.ok 78 f
  | .add64 b a d => ok32 80 false b a d
  | .add64W f => X3.ok 80 f
  | .sub64 b a d => ok32 81 false b a d
  | .sub64W f => X3.ok 81 f
  | .shl64 b a d => ok32 82 false b a d
  | .shl64W f => X3.ok 82 f
  | .cmp64 m b a d => ok32 83 m b a d
  | .cmp64W f => X3.ok 83 f
  | .mad64 b a d => ok32 84 false b a d
  | .mad64W f => X3.ok 84 f
  | .i2f m a d => ok32 85 m 0 a d
  | .i2fW f => X3.ok 85 f
  | .f2i m a d => ok32 86 m 0 a d
  | .f2iW f => X3.ok 86 f
  | .f2f m a d => ok32 87 m 0 a d
  | .f2fW f => X3.ok 87 f
  | .pack m b a d => ok32 88 m b a d
  | .packW f => X3.ok 88 f
  | .unpack m a d => ok32 89 m 0 a d
  | .unpackW f => X3.ok 89 f
  | .fadd b a d => ok32 96 false b a d
  | .faddW f => X3.ok 96 f
  | .fsub b a d => ok32 97 false b a d
  | .fsubW f => X3.ok 97 f
  | .fmul b a d => ok32 98 false b a d
  | .fmulW f => X3.ok 98 f
  | .ffma b a d => ok32 99 false b a d
  | .ffmaW f => X3.ok 99 f
  | .fmin b a d => ok32 100 false b a d
  | .fminW f => X3.ok 100 f
  | .fmax b a d => ok32 101 false b a d
  | .fmaxW f => X3.ok 101 f
  | .fcmp b a d => ok32 102 false b a d
  | .fcmpW f => X3.ok 102 f
  | .fcmpp m b a d => ok32 103 m b a d
  | .fcmppW f => X3.ok 103 f
  | .frnd a d => ok32 104 false 0 a d
  | .frndW f => X3.ok 104 f
  | .fclass a d => ok32 105 false 0 a d
  | .fclassW f => X3.ok 105 f
  | .fscale b a d => ok32 106 false b a d
  | .fscaleW f => X3.ok 106 f
  | .fexpn a d => ok32 107 false 0 a d
  | .fexpnW f => X3.ok 107 f
  | .fmant a d => ok32 108 false 0 a d
  | .fmantW f => X3.ok 108 f
  | .fcpys m b a d => ok32 109 m b a d
  | .fcpysW f => X3.ok 109 f
  | .hadd2 m b a d => ok32 112 m b a d
  | .hadd2W f => X3.ok 112 f
  | .hsub2 m b a d => ok32 113 m b a d
  | .hsub2W f => X3.ok 113 f
  | .hmul2 m b a d => ok32 114 m b a d
  | .hmul2W f => X3.ok 114 f
  | .hfma2 m b a d => ok32 115 m b a d
  | .hfma2W f => X3.ok 115 f
  | .hmax2 m b a d => ok32 116 m b a d
  | .hmax2W f => X3.ok 116 f
  | .hmin2 m b a d => ok32 117 m b a d
  | .hmin2W f => X3.ok 117 f
  | .hdot2 m b a d => ok32 118 m b a d
  | .hdot2W f => X3.ok 118 f
  | .sin m a d => ok32 128 m 0 a d
  | .sinW f => X3.ok 128 f
  | .cos m a d => ok32 129 m 0 a d
  | .cosW f => X3.ok 129 f
  | .sincos m a d => ok32 130 m 0 a d
  | .sincosW f => X3.ok 130 f
  | .sinpi m a d => ok32 131 m 0 a d
  | .sinpiW f => X3.ok 131 f
  | .cospi m a d => ok32 132 m 0 a d
  | .cospiW f => X3.ok 132 f
  | .exp2 m a d => ok32 133 m 0 a d
  | .exp2W f => X3.ok 133 f
  | .log2 m a d => ok32 134 m 0 a d
  | .log2W f => X3.ok 134 f
  | .rcp m a d => ok32 135 m 0 a d
  | .rcpW f => X3.ok 135 f
  | .rsqrt m a d => ok32 136 m 0 a d
  | .rsqrtW f => X3.ok 136 f
  | .sqrt m a d => ok32 137 m 0 a d
  | .sqrtW f => X3.ok 137 f
  | .tanh m a d => ok32 138 m 0 a d
  | .tanhW f => X3.ok 138 f
  | .shfl m b a d => ok32 144 m b a d
  | .shflW f => X3.ok 144 f
  | .pairx m b a d => ok32 145 m b a d
  | .pairxW f => X3.ok 145 f
  | .vote m a d => ok32 146 m 0 a d
  | .voteW f => X3.ok 146 f
  | .redux m b a d => ok32 147 m b a d
  | .reduxW f => X3.ok 147 f
  | .scan m b a d => ok32 148 m b a d
  | .scanW f => X3.ok 148 f
  | .matchL m a d => ok32 149 m 0 a d
  | .matchLW f => X3.ok 149 f
  | .lsync => ok32 150 false 0 0 0
  | .lsyncW f => X3.ok 150 f
  | .ld m b a d => ok32 160 m b a d
  | .ldW f => XM.ok 160 f
  | .st b a d => ok32 161 false b a d
  | .stW f => XM.ok 161 f
  | .ldro m b a d => ok32 162 m b a d
  | .ldroW f => XM.ok 162 f
  | .lds m b a d => ok32 163 m b a d
  | .ldsW f => XM.ok 163 f
  | .sts b a d => ok32 164 false b a d
  | .stsW f => XM.ok 164 f
  | .mma f => X3.ok 256 f
  | .mmag f => X3.ok 257 f
  | .mmat f => X3.ok 258 f
  | .aclr f => X3.ok 259 f
  | .ascale f => X3.ok 260 f
  | .acvt f => X3.ok 261 f
  | .atrn f => X3.ok 262 f
  | .apatch f => X3.ok 263 f
  | .await f => X3.ok 264 f
  | .obres f => XE.ok 265 f
  | .obrel f => X3.ok 266 f
  | .obld f => XM.ok 267 f
  | .obswap f => X3.ok 268 f
  | .atom f => XM.ok 272 f
  | .atoms f => XM.ok 273 f
  | .atomp f => XM.ok 274 f
  | .fence f => XM.ok 275 f
  | .prefb f => XM.ok 276 f
  | .crdecl f => XM.ok 277 f
  | .crrel f => XM.ok 278 f
  | .invl f => XM.ok 279 f
  | .wbl f => XM.ok 280 f
  | .lhint f => XM.ok 281 f
  | .pres f => XM.ok 282 f
  | .cpa f => XE.ok 288 f
  | .cpt f => XE.ok 289 f
  | .cpm f => XE.ok 290 f
  | .gath f => XE.ok 291 f
  | .scat f => XE.ok 292 f
  | .rinit f => XE.ok 293 f
  | .rawait f => XE.ok 294 f
  | .rrel f => XE.ok 295 f
  | .binit f => XE.ok 296 f
  | .barv f => XE.ok 297 f
  | .bexp f => XE.ok 298 f
  | .bwait f => XE.ok 299 f
  | .btest f => XE.ok 300 f
  | .coll f => XE.ok 301 f
  | .tkwait f => XE.ok 302 f
  | .launch f => XE.ok 304 f
  | .join f => XE.ok 305 f
  | .sgset f => XS.ok 306 f
  | .prio f => XS.ok 307 f
  | .evsig f => XE.ok 308 f
  | .evwait f => XE.ok 309 f
  | .cvtq f => X3.ok 312 f
  | .dqcb f => X3.ok 313 f
  | .savex f => XS.ok 320 f
  | .restx f => XS.ok 321 f
  | .watch f => XE.ok 322 f
  | .unwatch f => XS.ok 323 f
  | .evmark f => XS.ok 324 f
  | .rdcap f => XS.ok 325 f
  | .srd f => XS.ok 326 f
  | .swr f => XS.ok 327 f
  | .freeze f => XS.ok 328 f
  | .bkpt f => XS.ok 329 f
  | .arbitrate _ => true
  | .waitEnd _ => true
  | .sleepExpiry _ _ => true
  | .loadReturn _ => true
  | .absentLineDelivery _ => true
  | .atomicReturn _ => true
  | .sfuService _ => true
  | .sfuResultWrite _ => true
  | .kstepStart _ => true
  | .kstepWrite _ => true
  | .mmatRendezvous _ => true
  | .obldComplete _ => true
  | .warpRelease _ => true
  | .ptsCreep _ => true
  | .clockTick _ => true
  | .localAgeingSweep _ => true
  | .homeAgeingSweep _ => true
  | .leasedLoadRequest _ => true
  | .homeStore _ => true
  | .writeBack _ _ => true
  | .dirtyAgeWriteback _ _ => true
  | .homeSliceArbitration _ => true
  | .retry _ => true
  | .diexLeaseGrant _ _ => true
  | .recall _ => true
  | .tileTaskStart _ _ => true
  | .engineLineWrite _ _ => true
  | .tileTaskComplete _ _ => true
  | .tileTaskAbort _ _ => true
  | .collRendezvous _ _ => true
  | .keystoneArrival _ => true
  | .keystoneRelease _ => true
  | .submissionDoorbell _ _ => true
  | .recordTake _ => true
  | .blockPlace => true
  | .priorityPromotion _ => true
  | .candidateReserve _ => true
  | .launchComplete _ => true
  | .completionEntryPost _ => true
  | .completionConsumerIndex _ _ => true
  | .hostEventRaise _ _ => true
  | .park _ => true
  | .parkComplete _ => true
  | .unpark _ => true
  | .evwaitSpinLimit _ => true
  | .faultWaitLimit _ => true
  | .trapEntry _ => true
  | .preemptRequest _ => true
  | .graceExpiry _ => true
  | .forcedSaveComplete _ => true
  | .blockScratchpadSave _ => true
  | .resumeAdmission _ => true
  | .fatalFault _ => true
  | .dataerrLoad _ => true
  | .pageWalk _ _ _ _ => true
  | .faultQueuePost => true
  | .faultQueueConsumerIndex _ => true
  | .replayDoorbell _ => true
  | .serviceDoorbell _ _ => true
  | .timebaseWrap _ => true
  | .freezeRequestArrival _ => true
  | .freezeMessage _ => true
  | .capsuleAssembly => true
  | .hostFreezeRequest => true
  | .capsuleRetrieve _ _ => true
  | .capsuleAcknowledge _ _ => true
  | .lcPeriodicFlush _ => true
  | .dramCommandSlot _ => true
  | .dramAccessComplete _ => true
  | .hbmAlert _ => true
  | .swapLineStep _ => true
  | .migrationLineCopy _ => true
  | .notificationPost => true
  | .hpnconsWrite _ => true
  | .hostDataResponse _ _ _ _ => true
  | .homeEviction _ => true
  | .snpData _ _ => true
  | .snpInv _ _ => true
  | .snpCur _ _ => true
  | .memRd _ _ _ => true
  | .memWr _ _ _ _ _ => true
  | .biRspS _ _ _ => true
  | .biRspI _ _ _ => true
  | .functionLevelReset => true
  | .flitReceive _ _ => true
  | .crcErrorReplay _ => true
  | .portRetrain _ => true
  | .retrainTimeout _ => true
  | .postedWriteAck _ => true
  | .powerGood => true
  | .hostLinkTrained _ _ => true
  | .hostLinkTimeout => true
  | .memoryTrained => true
  | .firmwareAuthenticate => true
  | .firmwareImageLoad _ => true
  | .rollbackAdvance _ => true
  | .warmReset => true
  | .coldReset => true
  | .throttleUpdate _ _ => true
  | .thermalAlert => true
  | .pwrlimWrite _ => true
  | .hclkWrite _ _ => true
  | .tlbinv _ _ => true
  | .ctxend _ _ => true
  | .qbind _ => true
  | .lcbase _ _ => true
  | .lcflush _ => true
  | .lcctl _ _ => true
  | .keyctlGenerate _ => true
  | .keyctlDestroy _ => true
  | .keyctlPlain _ => true
  | .missClear _ _ => true
  | .hpsel _ _ => true
  | .hpcnt _ _ => true
  | .migcmd _ => true
  | .swapcmd _ => true
  | .causkid _ => true
  | .sysregWrite _ _ _ => true
  | .portTrained _ _ => true
  | .launchResume _ => true
  | .powerLoss => true

end Sys2Proof
end

