-- ==== Sys2Proof/Decode.lean ====
section
/-! DEFINITION. The decoder and, after it, the encoder (R59, R63 to R67, R76, R77). The decoder is total: a bit pattern
that is not an instruction (R79) is refused by name. -/

namespace Sys2Proof

/-- R79: why a bit pattern is not an instruction. -/
inductive Reject where
  /-- an opcode marked unassigned in its length -/
  | unassigned (opc : Nat)
  /-- a nonzero reserved bit, or a field value that the entry does not accept -/
  | field (opc : Nat)
  deriving DecidableEq, Repr

/-- R59: the length in bytes, from the first halfword. -/
def lengthOf (h : BitVec 16) : Nat := if h.getLsbD 0 then (if h.getLsbD 1 then 8 else 4) else 2

/-! ### The formats -/

/-- R63. -/
def word16 (y : BitVec 5) (x : BitVec 6) (op : BitVec 4) : BitVec 16 := y ++ x ++ op ++ 0#1

/-- R64. -/
def word32 (m : Bool) (b a d : BitVec 7) (opc : BitVec 8) : BitVec 32 := BitVec.ofBool m ++ b ++ a ++ d ++ opc ++ 1#2

/-- R66: bits [31:0] of the 64-bit form. -/
def low64 (guard : BitVec 4) (sense : BitVec 1) (d a : BitVec 8) (opc : BitVec 9) : BitVec 32 :=
  a ++ d ++ sense ++ guard ++ opc ++ 3#2

/-- R67. -/
def X3.word (f : X3) (opc : BitVec 9) : BitVec 64 :=
  f.rm ++ f.ty ++ f.fs ++ f.ftz ++ f.ovf ++ f.scope ++ f.c ++ f.b ++ low64 f.guard f.sense f.d f.a opc

def XI.word (f : XI) (opc : BitVec 9) : BitVec 64 := f.imm ++ low64 f.guard f.sense f.d f.a opc

def XM.word (f : XM) (opc : BitVec 9) : BitVec 64 :=
  f.scope ++ f.size ++ f.fs ++ f.var ++ 0#2 ++ f.c ++ f.b ++ low64 f.guard f.sense f.d f.a opc

def XE.word (f : XE) (opc : BitVec 9) : BitVec 64 :=
  f.var8 ++ f.scope ++ f.fs ++ 0#1 ++ f.c ++ f.b ++ low64 f.guard f.sense f.d f.a opc

def XS.word (f : XS) (opc : BitVec 9) : BitVec 64 := f.simm ++ f.c ++ f.b ++ low64 f.guard f.sense f.d f.a opc

def X3.ofWord (w : BitVec 64) : X3 where
  guard := w.extractLsb' 11 4
  sense := w.extractLsb' 15 1
  d := w.extractLsb' 16 8
  a := w.extractLsb' 24 8
  b := w.extractLsb' 32 8
  c := w.extractLsb' 40 8
  scope := w.extractLsb' 48 6
  ovf := w.extractLsb' 54 2
  ftz := w.extractLsb' 56 1
  fs := w.extractLsb' 57 1
  ty := w.extractLsb' 58 4
  rm := w.extractLsb' 62 2

def XI.ofWord (w : BitVec 64) : XI where
  guard := w.extractLsb' 11 4
  sense := w.extractLsb' 15 1
  d := w.extractLsb' 16 8
  a := w.extractLsb' 24 8
  imm := w.extractLsb' 32 32

def XM.ofWord (w : BitVec 64) : XM where
  guard := w.extractLsb' 11 4
  sense := w.extractLsb' 15 1
  d := w.extractLsb' 16 8
  a := w.extractLsb' 24 8
  b := w.extractLsb' 32 8
  c := w.extractLsb' 40 8
  var := w.extractLsb' 50 4
  fs := w.extractLsb' 54 1
  size := w.extractLsb' 55 3
  scope := w.extractLsb' 58 6

def XE.ofWord (w : BitVec 64) : XE where
  guard := w.extractLsb' 11 4
  sense := w.extractLsb' 15 1
  d := w.extractLsb' 16 8
  a := w.extractLsb' 24 8
  b := w.extractLsb' 32 8
  c := w.extractLsb' 40 8
  fs := w.extractLsb' 49 1
  scope := w.extractLsb' 50 6
  var8 := w.extractLsb' 56 8

def XS.ofWord (w : BitVec 64) : XS where
  guard := w.extractLsb' 11 4
  sense := w.extractLsb' 15 1
  d := w.extractLsb' 16 8
  a := w.extractLsb' 24 8
  b := w.extractLsb' 32 8
  c := w.extractLsb' 40 8
  simm := w.extractLsb' 48 16

/-! ### Validity -/

/-- R64: the fields of a 32-bit word. -/
def fieldM (w : BitVec 32) : Bool := w.getLsbD 31
def fieldB (w : BitVec 32) : BitVec 7 := w.extractLsb' 24 7
def fieldA (w : BitVec 32) : BitVec 7 := w.extractLsb' 17 7
def fieldD (w : BitVec 32) : BitVec 7 := w.extractLsb' 10 7
def opcode32 (w : BitVec 32) : Nat := (w.extractLsb' 2 8).toNat

/-- R66. -/
def opcode64 (w : BitVec 64) : Nat := (w.extractLsb' 2 9).toNat

/-- R67: the sub-formats. -/
inductive Sub where
  | x3 | xi | xm | xe | xs
  deriving DecidableEq, Repr

/-- R76, R77: the sub-format of an opcode; none for an unassigned one. -/
def subFormat (opc : Nat) : Option Sub :=
  if oneOf [1, 3, 6, 10, 11, 14, 24, 64, 65, 66, 67, 68, 69, 70, 71, 72, 73, 74, 75, 76, 77, 78] opc then some .xi
  else if oneOf [0, 15, 16, 17, 306, 307, 320, 321, 323, 324, 325, 326, 327, 328, 329] opc then some .xs
  else if oneOf [160, 161, 162, 163, 164, 267, 272, 273, 274, 275, 276, 277, 278, 279, 280, 281, 282] opc then some .xm
  else if oneOf [265, 288, 289, 290, 291, 292, 293, 294, 295, 296, 297, 298, 299, 300, 301, 302, 304, 305, 308, 309, 322] opc then some .xe
  else if (decide (2 ≤ opc) && decide (opc ≤ 2)) ||
    (decide (4 ≤ opc) && decide (opc ≤ 5)) ||
    (decide (7 ≤ opc) && decide (opc ≤ 9)) ||
    (decide (12 ≤ opc) && decide (opc ≤ 13)) ||
    (decide (18 ≤ opc) && decide (opc ≤ 23)) ||
    (decide (25 ≤ opc) && decide (opc ≤ 27)) ||
    (decide (32 ≤ opc) && decide (opc ≤ 59)) ||
    (decide (80 ≤ opc) && decide (opc ≤ 89)) ||
    (decide (96 ≤ opc) && decide (opc ≤ 109)) ||
    (decide (112 ≤ opc) && decide (opc ≤ 118)) ||
    (decide (128 ≤ opc) && decide (opc ≤ 138)) ||
    (decide (144 ≤ opc) && decide (opc ≤ 150)) ||
    (decide (256 ≤ opc) && decide (opc ≤ 264)) ||
    (decide (266 ≤ opc) && decide (opc ≤ 266)) ||
    (decide (268 ≤ opc) && decide (opc ≤ 268)) ||
    (decide (312 ≤ opc) && decide (opc ≤ 313)) then some .x3
  else none

/-- R76: the opcodes that have a 32-bit form. -/
def assigned32 (opc : Nat) : Bool := decide (opc < 256) && (subFormat opc).isSome

/-- R67, R70: the 64-bit word is an instruction; the reserved bits of XM and XE are zero. -/
def valid64 (w : BitVec 64) : Bool :=
  let opc := opcode64 w
  match subFormat opc with
  | none => false
  | some .x3 => X3.ok opc (X3.ofWord w)
  | some .xi => XI.ok opc (XI.ofWord w)
  | some .xm => w.extractLsb' 48 2 == 0#2 && XM.ok opc (XM.ofWord w)
  | some .xe => w.extractLsb' 48 1 == 0#1 && XE.ok opc (XE.ofWord w)
  | some .xs => XS.ok opc (XS.ofWord w)

def valid32 (w : BitVec 32) : Bool := ok32 (opcode32 w) (fieldM w) (fieldB w) (fieldA w) (fieldD w)

/-- R79: the bytes from the low end of `w` on are an instruction. Every 16-bit operation is assigned (R63). -/
def valid (w : BitVec 64) : Bool :=
  let len := lengthOf (w.extractLsb' 0 16)
  if len = 2 then true else if len = 4 then valid32 (w.extractLsb' 0 32) else valid64 w

/-! ### The opcode maps -/

/-- R63. -/
noncomputable def build16 (w : BitVec 16) : Instr :=
  let y := w.extractLsb' 11 5
  let x := w.extractLsb' 5 6
  match (w.extractLsb' 1 4).toNat with
  | 0 => .mov16 y x
  | 1 => .iadd16 y x
  | 2 => .isub16 y x
  | 3 => .imul16 y x
  | 4 => .and16 y x
  | 5 => .or16 y x
  | 6 => .xor16 y x
  | 7 => .shl16 y x
  | 8 => .shr16 y x
  | 9 => .sar16 y x
  | 10 => .fadd16 y x
  | 11 => .fsub16 y x
  | 12 => .fmul16 y x
  | 13 => .fmax16 y x
  | 14 => .fmin16 y x
  | _ => .hadd216 y x

/-- R64, R76: the instruction of a valid 32-bit word. -/
noncomputable def build32 (w : BitVec 32) : Instr :=
  let m := fieldM w
  let b := fieldB w
  let a := fieldA w
  let d := fieldD w
  match opcode32 w with
  | 0 => .nop
  | 1 => .bra (w.extractLsb' 10 21)
  | 2 => .brx a
  | 3 => .call (w.extractLsb' 10 21)
  | 4 => .callx a
  | 5 => .ret
  | 6 => .loop (w.extractLsb' 19 12) (w.extractLsb' 17 2) d
  | 7 => .lbrk d
  | 8 => .exit
  | 9 => .yield
  | 10 => .waitf (w.extractLsb' 19 12)
  | 11 => .sval b d
  | 12 => .partset (w.extractLsb' 24 3)
  | 13 => if b == 1 then .modeM else .modeV
  | 14 => .sleep (w.extractLsb' 17 14)
  | 15 => if m then .trapSvc b a d else .trap b
  | 16 => .tret m
  | 17 => .preack
  | 18 => .plop b a d
  | 19 => .pmov m b a d
  | 20 => .pset b a d
  | 21 => .pcnt a d
  | 22 => .sel m b a d
  | 23 => .mov b a d
  | 24 => .movi (w.extractLsb' 17 14) d
  | 25 => .lea m b a d
  | 26 => .icmp m b a d
  | 27 => .icmpp m b a d
  | 32 => .iadd b a d
  | 33 => .isub b a d
  | 34 => .iaddc b a d
  | 35 => .isubb b a d
  | 36 => .imul b a d
  | 37 => .imulh m b a d
  | 38 => .imad b a d
  | 39 => .imadw m b a d
  | 40 => .ineg a d
  | 41 => .iabs a d
  | 42 => .imin m b a d
  | 43 => .imax m b a d
  | 44 => .popc a d
  | 45 => .clz a d
  | 46 => .ctz a d
  | 47 => .brev a d
  | 48 => .and b a d
  | 49 => .or b a d
  | 50 => .xor b a d
  | 51 => .andn b a d
  | 52 => .not a d
  | 53 => .shl b a d
  | 54 => .shr b a d
  | 55 => .sar b a d
  | 56 => .shf b a d
  | 57 => .bfx m b a d
  | 58 => .bfi b a d
  | 59 => .prmt b a d
  | 64 => .iaddImm b a d
  | 65 => .isubImm b a d
  | 66 => .imulImm b a d
  | 67 => .andImm b a d
  | 68 => .orImm b a d
  | 69 => .xorImm b a d
  | 70 => .shlImm b a d
  | 71 => .shrImm b a d
  | 72 => .sarImm b a d
  | 73 => .iminImm b a d
  | 74 => .imaxImm b a d
  | 75 => .icmpImm b a d
  | 76 => .icmppImm m b a d
  | 77 => .leaImm b a d
  | 78 => .add64Imm b a d
  | 80 => .add64 b a d
  | 81 => .sub64 b a d
  | 82 => .shl64 b a d
  | 83 => .cmp64 m b a d
  | 84 => .mad64 b a d
  | 85 => .i2f m a d
  | 86 => .f2i m a d
  | 87 => .f2f m a d
  | 88 => .pack m b a d
  | 89 => .unpack m a d
  | 96 => .fadd b a d
  | 97 => .fsub b a d
  | 98 => .fmul b a d
  | 99 => .ffma b a d
  | 100 => .fmin b a d
  | 101 => .fmax b a d
  | 102 => .fcmp b a d
  | 103 => .fcmpp m b a d
  | 104 => .frnd a d
  | 105 => .fclass a d
  | 106 => .fscale b a d
  | 107 => .fexpn a d
  | 108 => .fmant a d
  | 109 => .fcpys m b a d
  | 112 => .hadd2 m b a d
  | 113 => .hsub2 m b a d
  | 114 => .hmul2 m b a d
  | 115 => .hfma2 m b a d
  | 116 => .hmax2 m b a d
  | 117 => .hmin2 m b a d
  | 118 => .hdot2 m b a d
  | 128 => .sin m a d
  | 129 => .cos m a d
  | 130 => .sincos m a d
  | 131 => .sinpi m a d
  | 132 => .cospi m a d
  | 133 => .exp2 m a d
  | 134 => .log2 m a d
  | 135 => .rcp m a d
  | 136 => .rsqrt m a d
  | 137 => .sqrt m a d
  | 138 => .tanh m a d
  | 144 => .shfl m b a d
  | 145 => .pairx m b a d
  | 146 => .vote m a d
  | 147 => .redux m b a d
  | 148 => .scan m b a d
  | 149 => .matchL m a d
  | 150 => .lsync
  | 160 => .ld m b a d
  | 161 => .st b a d
  | 162 => .ldro m b a d
  | 163 => .lds m b a d
  | 164 => .sts b a d
  | _ => .nop

/-- R66, R76, R77: the instruction of a valid 64-bit word. -/
noncomputable def build64 (w : BitVec 64) : Instr :=
  match opcode64 w with
  | 0 => .nopW (XS.ofWord w)
  | 1 => .braW (XI.ofWord w)
  | 2 => .brxW (X3.ofWord w)
  | 3 => .callW (XI.ofWord w)
  | 4 => .callxW (X3.ofWord w)
  | 5 => .retW (X3.ofWord w)
  | 6 => .loopW (XI.ofWord w)
  | 7 => .lbrkW (X3.ofWord w)
  | 8 => .exitW (X3.ofWord w)
  | 9 => .yieldW (X3.ofWord w)
  | 10 => .waitfW (XI.ofWord w)
  | 11 => .svalW (XI.ofWord w)
  | 12 => .partsetW (X3.ofWord w)
  | 13 => .modeW (X3.ofWord w)
  | 14 => .sleepW (XI.ofWord w)
  | 15 => if w.getLsbD 56 then .trapSvcW (XS.ofWord w) else .trapW (XS.ofWord w)
  | 16 => .tretW (XS.ofWord w)
  | 17 => .preackW (XS.ofWord w)
  | 18 => .plopW (X3.ofWord w)
  | 19 => .pmovW (X3.ofWord w)
  | 20 => .psetW (X3.ofWord w)
  | 21 => .pcntW (X3.ofWord w)
  | 22 => .selW (X3.ofWord w)
  | 23 => .movW (X3.ofWord w)
  | 24 => .moviW (XI.ofWord w)
  | 25 => .leaW (X3.ofWord w)
  | 26 => .icmpW (X3.ofWord w)
  | 27 => .icmppW (X3.ofWord w)
  | 32 => .iaddW (X3.ofWord w)
  | 33 => .isubW (X3.ofWord w)
  | 34 => .iaddcW (X3.ofWord w)
  | 35 => .isubbW (X3.ofWord w)
  | 36 => .imulW (X3.ofWord w)
  | 37 => .imulhW (X3.ofWord w)
  | 38 => .imadW (X3.ofWord w)
  | 39 => .imadwW (X3.ofWord w)
  | 40 => .inegW (X3.ofWord w)
  | 41 => .iabsW (X3.ofWord w)
  | 42 => .iminW (X3.ofWord w)
  | 43 => .imaxW (X3.ofWord w)
  | 44 => .popcW (X3.ofWord w)
  | 45 => .clzW (X3.ofWord w)
  | 46 => .ctzW (X3.ofWord w)
  | 47 => .brevW (X3.ofWord w)
  | 48 => .andW (X3.ofWord w)
  | 49 => .orW (X3.ofWord w)
  | 50 => .xorW (X3.ofWord w)
  | 51 => .andnW (X3.ofWord w)
  | 52 => .notW (X3.ofWord w)
  | 53 => .shlW (X3.ofWord w)
  | 54 => .shrW (X3.ofWord w)
  | 55 => .sarW (X3.ofWord w)
  | 56 => .shfW (X3.ofWord w)
  | 57 => .bfxW (X3.ofWord w)
  | 58 => .bfiW (X3.ofWord w)
  | 59 => .prmtW (X3.ofWord w)
  | 64 => .iaddImmW (XI.ofWord w)
  | 65 => .isubImmW (XI.ofWord w)
  | 66 => .imulImmW (XI.ofWord w)
  | 67 => .andImmW (XI.ofWord w)
  | 68 => .orImmW (XI.ofWord w)
  | 69 => .xorImmW (XI.ofWord w)
  | 70 => .shlImmW (XI.ofWord w)
  | 71 => .shrImmW (XI.ofWord w)
  | 72 => .sarImmW (XI.ofWord w)
  | 73 => .iminImmW (XI.ofWord w)
  | 74 => .imaxImmW (XI.ofWord w)
  | 75 => .icmpImmW (XI.ofWord w)
  | 76 => .icmppImmW (XI.ofWord w)
  | 77 => .leaImmW (XI.ofWord w)
  | 78 => .add64ImmW (XI.ofWord w)
  | 80 => .add64W (X3.ofWord w)
  | 81 => .sub64W (X3.ofWord w)
  | 82 => .shl64W (X3.ofWord w)
  | 83 => .cmp64W (X3.ofWord w)
  | 84 => .mad64W (X3.ofWord w)
  | 85 => .i2fW (X3.ofWord w)
  | 86 => .f2iW (X3.ofWord w)
  | 87 => .f2fW (X3.ofWord w)
  | 88 => .packW (X3.ofWord w)
  | 89 => .unpackW (X3.ofWord w)
  | 96 => .faddW (X3.ofWord w)
  | 97 => .fsubW (X3.ofWord w)
  | 98 => .fmulW (X3.ofWord w)
  | 99 => .ffmaW (X3.ofWord w)
  | 100 => .fminW (X3.ofWord w)
  | 101 => .fmaxW (X3.ofWord w)
  | 102 => .fcmpW (X3.ofWord w)
  | 103 => .fcmppW (X3.ofWord w)
  | 104 => .frndW (X3.ofWord w)
  | 105 => .fclassW (X3.ofWord w)
  | 106 => .fscaleW (X3.ofWord w)
  | 107 => .fexpnW (X3.ofWord w)
  | 108 => .fmantW (X3.ofWord w)
  | 109 => .fcpysW (X3.ofWord w)
  | 112 => .hadd2W (X3.ofWord w)
  | 113 => .hsub2W (X3.ofWord w)
  | 114 => .hmul2W (X3.ofWord w)
  | 115 => .hfma2W (X3.ofWord w)
  | 116 => .hmax2W (X3.ofWord w)
  | 117 => .hmin2W (X3.ofWord w)
  | 118 => .hdot2W (X3.ofWord w)
  | 128 => .sinW (X3.ofWord w)
  | 129 => .cosW (X3.ofWord w)
  | 130 => .sincosW (X3.ofWord w)
  | 131 => .sinpiW (X3.ofWord w)
  | 132 => .cospiW (X3.ofWord w)
  | 133 => .exp2W (X3.ofWord w)
  | 134 => .log2W (X3.ofWord w)
  | 135 => .rcpW (X3.ofWord w)
  | 136 => .rsqrtW (X3.ofWord w)
  | 137 => .sqrtW (X3.ofWord w)
  | 138 => .tanhW (X3.ofWord w)
  | 144 => .shflW (X3.ofWord w)
  | 145 => .pairxW (X3.ofWord w)
  | 146 => .voteW (X3.ofWord w)
  | 147 => .reduxW (X3.ofWord w)
  | 148 => .scanW (X3.ofWord w)
  | 149 => .matchLW (X3.ofWord w)
  | 150 => .lsyncW (X3.ofWord w)
  | 160 => .ldW (XM.ofWord w)
  | 161 => .stW (XM.ofWord w)
  | 162 => .ldroW (XM.ofWord w)
  | 163 => .ldsW (XM.ofWord w)
  | 164 => .stsW (XM.ofWord w)
  | 256 => .mma (X3.ofWord w)
  | 257 => .mmag (X3.ofWord w)
  | 258 => .mmat (X3.ofWord w)
  | 259 => .aclr (X3.ofWord w)
  | 260 => .ascale (X3.ofWord w)
  | 261 => .acvt (X3.ofWord w)
  | 262 => .atrn (X3.ofWord w)
  | 263 => .apatch (X3.ofWord w)
  | 264 => .await (X3.ofWord w)
  | 265 => .obres (XE.ofWord w)
  | 266 => .obrel (X3.ofWord w)
  | 267 => .obld (XM.ofWord w)
  | 268 => .obswap (X3.ofWord w)
  | 272 => .atom (XM.ofWord w)
  | 273 => .atoms (XM.ofWord w)
  | 274 => .atomp (XM.ofWord w)
  | 275 => .fence (XM.ofWord w)
  | 276 => .prefb (XM.ofWord w)
  | 277 => .crdecl (XM.ofWord w)
  | 278 => .crrel (XM.ofWord w)
  | 279 => .invl (XM.ofWord w)
  | 280 => .wbl (XM.ofWord w)
  | 281 => .lhint (XM.ofWord w)
  | 282 => .pres (XM.ofWord w)
  | 288 => .cpa (XE.ofWord w)
  | 289 => .cpt (XE.ofWord w)
  | 290 => .cpm (XE.ofWord w)
  | 291 => .gath (XE.ofWord w)
  | 292 => .scat (XE.ofWord w)
  | 293 => .rinit (XE.ofWord w)
  | 294 => .rawait (XE.ofWord w)
  | 295 => .rrel (XE.ofWord w)
  | 296 => .binit (XE.ofWord w)
  | 297 => .barv (XE.ofWord w)
  | 298 => .bexp (XE.ofWord w)
  | 299 => .bwait (XE.ofWord w)
  | 300 => .btest (XE.ofWord w)
  | 301 => .coll (XE.ofWord w)
  | 302 => .tkwait (XE.ofWord w)
  | 304 => .launch (XE.ofWord w)
  | 305 => .join (XE.ofWord w)
  | 306 => .sgset (XS.ofWord w)
  | 307 => .prio (XS.ofWord w)
  | 308 => .evsig (XE.ofWord w)
  | 309 => .evwait (XE.ofWord w)
  | 312 => .cvtq (X3.ofWord w)
  | 313 => .dqcb (X3.ofWord w)
  | 320 => .savex (XS.ofWord w)
  | 321 => .restx (XS.ofWord w)
  | 322 => .watch (XE.ofWord w)
  | 323 => .unwatch (XS.ofWord w)
  | 324 => .evmark (XS.ofWord w)
  | 325 => .rdcap (XS.ofWord w)
  | 326 => .srd (XS.ofWord w)
  | 327 => .swr (XS.ofWord w)
  | 328 => .freeze (XS.ofWord w)
  | 329 => .bkpt (XS.ofWord w)
  | _ => .nop

/-- R79: why an invalid word is refused. -/
def rejection (w : BitVec 64) : Reject :=
  let len := lengthOf (w.extractLsb' 0 16)
  if len = 4 then
    let o := opcode32 (w.extractLsb' 0 32)
    if assigned32 o then .field o else .unassigned o
  else if (subFormat (opcode64 w)).isSome then .field (opcode64 w) else .unassigned (opcode64 w)

/-- R59: the instruction whose first bytes are the low bits of `w`, with its length in bytes. (Lean cannot compile the
constructors of a type as large as `Instr`; the kernel evaluates this definition as any other.) -/
noncomputable def decode (w : BitVec 64) : Except Reject (Instr × Nat) :=
  let len := lengthOf (w.extractLsb' 0 16)
  if valid w then
    .ok (if len = 2 then build16 (w.extractLsb' 0 16) else if len = 4 then build32 (w.extractLsb' 0 32) else build64 w, len)
  else .error (rejection w)

/-- The instruction read from the table's numbering of the bits: bit 0 is the least significant bit of the first halfword. -/
noncomputable def decodeTableWord (nbits w : Nat) : Option Instr :=
  match decode (BitVec.ofNat 64 (w % 2 ^ nbits)) with
  | .ok (i, _) => some i
  | .error _ => none

/-! ### The encoder -/

/-- The bits of an encoded instruction, with its length in bytes. -/
structure Code where
  bits : BitVec 64
  len : Nat
  deriving DecidableEq, Repr

def Code.of16 (y : BitVec 5) (x : BitVec 6) (op : BitVec 4) : Code := ⟨(word16 y x op).zeroExtend 64, 2⟩

def Code.of32 (w : BitVec 32) : Code := ⟨w.zeroExtend 64, 4⟩

def Code.of64 (w : BitVec 64) : Code := ⟨w, 8⟩

/-- R63 to R67, R76, R77: the encoding of an instruction; a step of the part has none. -/
def encode : Instr → Option Code
  | .mov16 y x => some <| .of16 y x 0
  | .iadd16 y x => some <| .of16 y x 1
  | .isub16 y x => some <| .of16 y x 2
  | .imul16 y x => some <| .of16 y x 3
  | .and16 y x => some <| .of16 y x 4
  | .or16 y x => some <| .of16 y x 5
  | .xor16 y x => some <| .of16 y x 6
  | .shl16 y x => some <| .of16 y x 7
  | .shr16 y x => some <| .of16 y x 8
  | .sar16 y x => some <| .of16 y x 9
  | .fadd16 y x => some <| .of16 y x 10
  | .fsub16 y x => some <| .of16 y x 11
  | .fmul16 y x => some <| .of16 y x 12
  | .fmax16 y x => some <| .of16 y x 13
  | .fmin16 y x => some <| .of16 y x 14
  | .hadd216 y x => some <| .of16 y x 15
  | .nop => some <| .of32 (word32 false 0 0 0 0)
  | .nopW f => some <| .of64 (f.word 0)
  | .bra j => some <| .of32 (0#1 ++ j ++ 1#8 ++ 1#2)
  | .braW f => some <| .of64 (f.word 1)
  | .brx a => some <| .of32 (word32 false 0 a 0 2)
  | .brxW f => some <| .of64 (f.word 2)
  | .call j => some <| .of32 (0#1 ++ j ++ 3#8 ++ 1#2)
  | .callW f => some <| .of64 (f.word 3)
  | .callx a => some <| .of32 (word32 false 0 a 0 4)
  | .callxW f => some <| .of64 (f.word 4)
  | .ret => some <| .of32 (word32 false 0 0 0 5)
  | .retW f => some <| .of64 (f.word 5)
  | .loop off lcn cnt => some <| .of32 (0#1 ++ off ++ lcn ++ cnt ++ 6#8 ++ 1#2)
  | .loopW f => some <| .of64 (f.word 6)
  | .lbrk d => some <| .of32 (word32 false 0 0 d 7)
  | .lbrkW f => some <| .of64 (f.word 7)
  | .exit => some <| .of32 (word32 false 0 0 0 8)
  | .exitW f => some <| .of64 (f.word 8)
  | .yield => some <| .of32 (word32 false 0 0 0 9)
  | .yieldW f => some <| .of64 (f.word 9)
  | .waitf k => some <| .of32 (0#1 ++ k ++ 0#9 ++ 10#8 ++ 1#2)
  | .waitfW f => some <| .of64 (f.word 10)
  | .sval s d => some <| .of32 (word32 false s 0 d 11)
  | .svalW f => some <| .of64 (f.word 11)
  | .partset b => some <| .of32 (0#5 ++ b ++ 0#14 ++ 12#8 ++ 1#2)
  | .partsetW f => some <| .of64 (f.word 12)
  | .modeM => some <| .of32 (word32 false 1 0 0 13)
  | .modeV => some <| .of32 (word32 false 0 0 0 13)
  | .modeW f => some <| .of64 (f.word 13)
  | .sleep n => some <| .of32 (0#1 ++ n ++ 0#7 ++ 14#8 ++ 1#2)
  | .sleepW f => some <| .of64 (f.word 14)
  | .trap n => some <| .of32 (word32 false n 0 0 15)
  | .trapSvc n a d => some <| .of32 (word32 true n a d 15)
  | .trapW f => some <| .of64 (f.word 15)
  | .trapSvcW f => some <| .of64 (f.word 15)
  | .tret m => some <| .of32 (word32 m 0 0 0 16)
  | .tretW f => some <| .of64 (f.word 16)
  | .preack => some <| .of32 (word32 false 0 0 0 17)
  | .preackW f => some <| .of64 (f.word 17)
  | .plop b a d => some <| .of32 (word32 false b a d 18)
  | .plopW f => some <| .of64 (f.word 18)
  | .pmov m b a d => some <| .of32 (word32 m b a d 19)
  | .pmovW f => some <| .of64 (f.word 19)
  | .pset b a d => some <| .of32 (word32 false b a d 20)
  | .psetW f => some <| .of64 (f.word 20)
  | .pcnt a d => some <| .of32 (word32 false 0 a d 21)
  | .pcntW f => some <| .of64 (f.word 21)
  | .sel m b a d => some <| .of32 (word32 m b a d 22)
  | .selW f => some <| .of64 (f.word 22)
  | .mov b a d => some <| .of32 (word32 false b a d 23)
  | .movW f => some <| .of64 (f.word 23)
  | .movi k d => some <| .of32 (0#1 ++ k ++ d ++ 24#8 ++ 1#2)
  | .moviW f => some <| .of64 (f.word 24)
  | .lea m b a d => some <| .of32 (word32 m b a d 25)
  | .leaW f => some <| .of64 (f.word 25)
  | .icmp m b a d => some <| .of32 (word32 m b a d 26)
  | .icmpW f => some <| .of64 (f.word 26)
  | .icmpp m b a d => some <| .of32 (word32 m b a d 27)
  | .icmppW f => some <| .of64 (f.word 27)
  | .iadd b a d => some <| .of32 (word32 false b a d 32)
  | .iaddW f => some <| .of64 (f.word 32)
  | .isub b a d => some <| .of32 (word32 false b a d 33)
  | .isubW f => some <| .of64 (f.word 33)
  | .iaddc b a d => some <| .of32 (word32 false b a d 34)
  | .iaddcW f => some <| .of64 (f.word 34)
  | .isubb b a d => some <| .of32 (word32 false b a d 35)
  | .isubbW f => some <| .of64 (f.word 35)
  | .imul b a d => some <| .of32 (word32 false b a d 36)
  | .imulW f => some <| .of64 (f.word 36)
  | .imulh m b a d => some <| .of32 (word32 m b a d 37)
  | .imulhW f => some <| .of64 (f.word 37)
  | .imad b a d => some <| .of32 (word32 false b a d 38)
  | .imadW f => some <| .of64 (f.word 38)
  | .imadw m b a d => some <| .of32 (word32 m b a d 39)
  | .imadwW f => some <| .of64 (f.word 39)
  | .ineg a d => some <| .of32 (word32 false 0 a d 40)
  | .inegW f => some <| .of64 (f.word 40)
  | .iabs a d => some <| .of32 (word32 false 0 a d 41)
  | .iabsW f => some <| .of64 (f.word 41)
  | .imin m b a d => some <| .of32 (word32 m b a d 42)
  | .iminW f => some <| .of64 (f.word 42)
  | .imax m b a d => some <| .of32 (word32 m b a d 43)
  | .imaxW f => some <| .of64 (f.word 43)
  | .popc a d => some <| .of32 (word32 false 0 a d 44)
  | .popcW f => some <| .of64 (f.word 44)
  | .clz a d => some <| .of32 (word32 false 0 a d 45)
  | .clzW f => some <| .of64 (f.word 45)
  | .ctz a d => some <| .of32 (word32 false 0 a d 46)
  | .ctzW f => some <| .of64 (f.word 46)
  | .brev a d => some <| .of32 (word32 false 0 a d 47)
  | .brevW f => some <| .of64 (f.word 47)
  | .and b a d => some <| .of32 (word32 false b a d 48)
  | .andW f => some <| .of64 (f.word 48)
  | .or b a d => some <| .of32 (word32 false b a d 49)
  | .orW f => some <| .of64 (f.word 49)
  | .xor b a d => some <| .of32 (word32 false b a d 50)
  | .xorW f => some <| .of64 (f.word 50)
  | .andn b a d => some <| .of32 (word32 false b a d 51)
  | .andnW f => some <| .of64 (f.word 51)
  | .not a d => some <| .of32 (word32 false 0 a d 52)
  | .notW f => some <| .of64 (f.word 52)
  | .shl b a d => some <| .of32 (word32 false b a d 53)
  | .shlW f => some <| .of64 (f.word 53)
  | .shr b a d => some <| .of32 (word32 false b a d 54)
  | .shrW f => some <| .of64 (f.word 54)
  | .sar b a d => some <| .of32 (word32 false b a d 55)
  | .sarW f => some <| .of64 (f.word 55)
  | .shf b a d => some <| .of32 (word32 false b a d 56)
  | .shfW f => some <| .of64 (f.word 56)
  | .bfx m b a d => some <| .of32 (word32 m b a d 57)
  | .bfxW f => some <| .of64 (f.word 57)
  | .bfi b a d => some <| .of32 (word32 false b a d 58)
  | .bfiW f => some <| .of64 (f.word 58)
  | .prmt b a d => some <| .of32 (word32 false b a d 59)
  | .prmtW f => some <| .of64 (f.word 59)
  | .iaddImm i a d => some <| .of32 (word32 false i a d 64)
  | .iaddImmW f => some <| .of64 (f.word 64)
  | .isubImm i a d => some <| .of32 (word32 false i a d 65)
  | .isubImmW f => some <| .of64 (f.word 65)
  | .imulImm i a d => some <| .of32 (word32 false i a d 66)
  | .imulImmW f => some <| .of64 (f.word 66)
  | .andImm i a d => some <| .of32 (word32 false i a d 67)
  | .andImmW f => some <| .of64 (f.word 67)
  | .orImm i a d => some <| .of32 (word32 false i a d 68)
  | .orImmW f => some <| .of64 (f.word 68)
  | .xorImm i a d => some <| .of32 (word32 false i a d 69)
  | .xorImmW f => some <| .of64 (f.word 69)
  | .shlImm i a d => some <| .of32 (word32 false i a d 70)
  | .shlImmW f => some <| .of64 (f.word 70)
  | .shrImm i a d => some <| .of32 (word32 false i a d 71)
  | .shrImmW f => some <| .of64 (f.word 71)
  | .sarImm i a d => some <| .of32 (word32 false i a d 72)
  | .sarImmW f => some <| .of64 (f.word 72)
  | .iminImm i a d => some <| .of32 (word32 false i a d 73)
  | .iminImmW f => some <| .of64 (f.word 73)
  | .imaxImm i a d => some <| .of32 (word32 false i a d 74)
  | .imaxImmW f => some <| .of64 (f.word 74)
  | .icmpImm i a d => some <| .of32 (word32 false i a d 75)
  | .icmpImmW f => some <| .of64 (f.word 75)
  | .icmppImm m i a d => some <| .of32 (word32 m i a d 76)
  | .icmppImmW f => some <| .of64 (f.word 76)
  | .leaImm i a d => some <| .of32 (word32 false i a d 77)
  | .leaImmW f => some <| .of64 (f.word 77)
  | .add64Imm i a d => some <| .of32 (word32 false i a d 78)
  | .add64ImmW f => some <| .of64 (f.word 78)
  | .add64 b a d => some <| .of32 (word32 false b a d 80)
  | .add64W f => some <| .of64 (f.word 80)
  | .sub64 b a d => some <| .of32 (word32 false b a d 81)
  | .sub64W f => some <| .of64 (f.word 81)
  | .shl64 b a d => some <| .of32 (word32 false b a d 82)
  | .shl64W f => some <| .of64 (f.word 82)
  | .cmp64 m b a d => some <| .of32 (word32 m b a d 83)
  | .cmp64W f => some <| .of64 (f.word 83)
  | .mad64 b a d => some <| .of32 (word32 false b a d 84)
  | .mad64W f => some <| .of64 (f.word 84)
  | .i2f m a d => some <| .of32 (word32 m 0 a d 85)
  | .i2fW f => some <| .of64 (f.word 85)
  | .f2i m a d => some <| .of32 (word32 m 0 a d 86)
  | .f2iW f => some <| .of64 (f.word 86)
  | .f2f m a d => some <| .of32 (word32 m 0 a d 87)
  | .f2fW f => some <| .of64 (f.word 87)
  | .pack m b a d => some <| .of32 (word32 m b a d 88)
  | .packW f => some <| .of64 (f.word 88)
  | .unpack m a d => some <| .of32 (word32 m 0 a d 89)
  | .unpackW f => some <| .of64 (f.word 89)
  | .fadd b a d => some <| .of32 (word32 false b a d 96)
  | .faddW f => some <| .of64 (f.word 96)
  | .fsub b a d => some <| .of32 (word32 false b a d 97)
  | .fsubW f => some <| .of64 (f.word 97)
  | .fmul b a d => some <| .of32 (word32 false b a d 98)
  | .fmulW f => some <| .of64 (f.word 98)
  | .ffma b a d => some <| .of32 (word32 false b a d 99)
  | .ffmaW f => some <| .of64 (f.word 99)
  | .fmin b a d => some <| .of32 (word32 false b a d 100)
  | .fminW f => some <| .of64 (f.word 100)
  | .fmax b a d => some <| .of32 (word32 false b a d 101)
  | .fmaxW f => some <| .of64 (f.word 101)
  | .fcmp b a d => some <| .of32 (word32 false b a d 102)
  | .fcmpW f => some <| .of64 (f.word 102)
  | .fcmpp m b a d => some <| .of32 (word32 m b a d 103)
  | .fcmppW f => some <| .of64 (f.word 103)
  | .frnd a d => some <| .of32 (word32 false 0 a d 104)
  | .frndW f => some <| .of64 (f.word 104)
  | .fclass a d => some <| .of32 (word32 false 0 a d 105)
  | .fclassW f => some <| .of64 (f.word 105)
  | .fscale b a d => some <| .of32 (word32 false b a d 106)
  | .fscaleW f => some <| .of64 (f.word 106)
  | .fexpn a d => some <| .of32 (word32 false 0 a d 107)
  | .fexpnW f => some <| .of64 (f.word 107)
  | .fmant a d => some <| .of32 (word32 false 0 a d 108)
  | .fmantW f => some <| .of64 (f.word 108)
  | .fcpys m b a d => some <| .of32 (word32 m b a d 109)
  | .fcpysW f => some <| .of64 (f.word 109)
  | .hadd2 m b a d => some <| .of32 (word32 m b a d 112)
  | .hadd2W f => some <| .of64 (f.word 112)
  | .hsub2 m b a d => some <| .of32 (word32 m b a d 113)
  | .hsub2W f => some <| .of64 (f.word 113)
  | .hmul2 m b a d => some <| .of32 (word32 m b a d 114)
  | .hmul2W f => some <| .of64 (f.word 114)
  | .hfma2 m b a d => some <| .of32 (word32 m b a d 115)
  | .hfma2W f => some <| .of64 (f.word 115)
  | .hmax2 m b a d => some <| .of32 (word32 m b a d 116)
  | .hmax2W f => some <| .of64 (f.word 116)
  | .hmin2 m b a d => some <| .of32 (word32 m b a d 117)
  | .hmin2W f => some <| .of64 (f.word 117)
  | .hdot2 m b a d => some <| .of32 (word32 m b a d 118)
  | .hdot2W f => some <| .of64 (f.word 118)
  | .sin m a d => some <| .of32 (word32 m 0 a d 128)
  | .sinW f => some <| .of64 (f.word 128)
  | .cos m a d => some <| .of32 (word32 m 0 a d 129)
  | .cosW f => some <| .of64 (f.word 129)
  | .sincos m a d => some <| .of32 (word32 m 0 a d 130)
  | .sincosW f => some <| .of64 (f.word 130)
  | .sinpi m a d => some <| .of32 (word32 m 0 a d 131)
  | .sinpiW f => some <| .of64 (f.word 131)
  | .cospi m a d => some <| .of32 (word32 m 0 a d 132)
  | .cospiW f => some <| .of64 (f.word 132)
  | .exp2 m a d => some <| .of32 (word32 m 0 a d 133)
  | .exp2W f => some <| .of64 (f.word 133)
  | .log2 m a d => some <| .of32 (word32 m 0 a d 134)
  | .log2W f => some <| .of64 (f.word 134)
  | .rcp m a d => some <| .of32 (word32 m 0 a d 135)
  | .rcpW f => some <| .of64 (f.word 135)
  | .rsqrt m a d => some <| .of32 (word32 m 0 a d 136)
  | .rsqrtW f => some <| .of64 (f.word 136)
  | .sqrt m a d => some <| .of32 (word32 m 0 a d 137)
  | .sqrtW f => some <| .of64 (f.word 137)
  | .tanh m a d => some <| .of32 (word32 m 0 a d 138)
  | .tanhW f => some <| .of64 (f.word 138)
  | .shfl m b a d => some <| .of32 (word32 m b a d 144)
  | .shflW f => some <| .of64 (f.word 144)
  | .pairx m b a d => some <| .of32 (word32 m b a d 145)
  | .pairxW f => some <| .of64 (f.word 145)
  | .vote m a d => some <| .of32 (word32 m 0 a d 146)
  | .voteW f => some <| .of64 (f.word 146)
  | .redux m b a d => some <| .of32 (word32 m b a d 147)
  | .reduxW f => some <| .of64 (f.word 147)
  | .scan m b a d => some <| .of32 (word32 m b a d 148)
  | .scanW f => some <| .of64 (f.word 148)
  | .matchL m a d => some <| .of32 (word32 m 0 a d 149)
  | .matchLW f => some <| .of64 (f.word 149)
  | .lsync => some <| .of32 (word32 false 0 0 0 150)
  | .lsyncW f => some <| .of64 (f.word 150)
  | .ld m b a d => some <| .of32 (word32 m b a d 160)
  | .ldW f => some <| .of64 (f.word 160)
  | .st b a d => some <| .of32 (word32 false b a d 161)
  | .stW f => some <| .of64 (f.word 161)
  | .ldro m b a d => some <| .of32 (word32 m b a d 162)
  | .ldroW f => some <| .of64 (f.word 162)
  | .lds m b a d => some <| .of32 (word32 m b a d 163)
  | .ldsW f => some <| .of64 (f.word 163)
  | .sts b a d => some <| .of32 (word32 false b a d 164)
  | .stsW f => some <| .of64 (f.word 164)
  | .mma f => some <| .of64 (f.word 256)
  | .mmag f => some <| .of64 (f.word 257)
  | .mmat f => some <| .of64 (f.word 258)
  | .aclr f => some <| .of64 (f.word 259)
  | .ascale f => some <| .of64 (f.word 260)
  | .acvt f => some <| .of64 (f.word 261)
  | .atrn f => some <| .of64 (f.word 262)
  | .apatch f => some <| .of64 (f.word 263)
  | .await f => some <| .of64 (f.word 264)
  | .obres f => some <| .of64 (f.word 265)
  | .obrel f => some <| .of64 (f.word 266)
  | .obld f => some <| .of64 (f.word 267)
  | .obswap f => some <| .of64 (f.word 268)
  | .atom f => some <| .of64 (f.word 272)
  | .atoms f => some <| .of64 (f.word 273)
  | .atomp f => some <| .of64 (f.word 274)
  | .fence f => some <| .of64 (f.word 275)
  | .prefb f => some <| .of64 (f.word 276)
  | .crdecl f => some <| .of64 (f.word 277)
  | .crrel f => some <| .of64 (f.word 278)
  | .invl f => some <| .of64 (f.word 279)
  | .wbl f => some <| .of64 (f.word 280)
  | .lhint f => some <| .of64 (f.word 281)
  | .pres f => some <| .of64 (f.word 282)
  | .cpa f => some <| .of64 (f.word 288)
  | .cpt f => some <| .of64 (f.word 289)
  | .cpm f => some <| .of64 (f.word 290)
  | .gath f => some <| .of64 (f.word 291)
  | .scat f => some <| .of64 (f.word 292)
  | .rinit f => some <| .of64 (f.word 293)
  | .rawait f => some <| .of64 (f.word 294)
  | .rrel f => some <| .of64 (f.word 295)
  | .binit f => some <| .of64 (f.word 296)
  | .barv f => some <| .of64 (f.word 297)
  | .bexp f => some <| .of64 (f.word 298)
  | .bwait f => some <| .of64 (f.word 299)
  | .btest f => some <| .of64 (f.word 300)
  | .coll f => some <| .of64 (f.word 301)
  | .tkwait f => some <| .of64 (f.word 302)
  | .launch f => some <| .of64 (f.word 304)
  | .join f => some <| .of64 (f.word 305)
  | .sgset f => some <| .of64 (f.word 306)
  | .prio f => some <| .of64 (f.word 307)
  | .evsig f => some <| .of64 (f.word 308)
  | .evwait f => some <| .of64 (f.word 309)
  | .cvtq f => some <| .of64 (f.word 312)
  | .dqcb f => some <| .of64 (f.word 313)
  | .savex f => some <| .of64 (f.word 320)
  | .restx f => some <| .of64 (f.word 321)
  | .watch f => some <| .of64 (f.word 322)
  | .unwatch f => some <| .of64 (f.word 323)
  | .evmark f => some <| .of64 (f.word 324)
  | .rdcap f => some <| .of64 (f.word 325)
  | .srd f => some <| .of64 (f.word 326)
  | .swr f => some <| .of64 (f.word 327)
  | .freeze f => some <| .of64 (f.word 328)
  | .bkpt f => some <| .of64 (f.word 329)
  | .arbitrate _ => none
  | .waitEnd _ => none
  | .sleepExpiry _ _ => none
  | .loadReturn _ => none
  | .absentLineDelivery _ => none
  | .atomicReturn _ => none
  | .sfuService _ => none
  | .sfuResultWrite _ => none
  | .kstepStart _ => none
  | .kstepWrite _ => none
  | .mmatRendezvous _ => none
  | .obldComplete _ => none
  | .warpRelease _ => none
  | .ptsCreep _ => none
  | .clockTick _ => none
  | .localAgeingSweep _ => none
  | .homeAgeingSweep _ => none
  | .leasedLoadRequest _ => none
  | .homeStore _ => none
  | .writeBack _ _ => none
  | .dirtyAgeWriteback _ _ => none
  | .homeSliceArbitration _ => none
  | .retry _ => none
  | .diexLeaseGrant _ _ => none
  | .recall _ => none
  | .tileTaskStart _ _ => none
  | .engineLineWrite _ _ => none
  | .tileTaskComplete _ _ => none
  | .tileTaskAbort _ _ => none
  | .collRendezvous _ _ => none
  | .keystoneArrival _ => none
  | .keystoneRelease _ => none
  | .submissionDoorbell _ _ => none
  | .recordTake _ => none
  | .blockPlace => none
  | .priorityPromotion _ => none
  | .candidateReserve _ => none
  | .launchComplete _ => none
  | .completionEntryPost _ => none
  | .completionConsumerIndex _ _ => none
  | .hostEventRaise _ _ => none
  | .park _ => none
  | .parkComplete _ => none
  | .unpark _ => none
  | .evwaitSpinLimit _ => none
  | .faultWaitLimit _ => none
  | .trapEntry _ => none
  | .preemptRequest _ => none
  | .graceExpiry _ => none
  | .forcedSaveComplete _ => none
  | .blockScratchpadSave _ => none
  | .resumeAdmission _ => none
  | .fatalFault _ => none
  | .dataerrLoad _ => none
  | .pageWalk _ _ _ _ => none
  | .faultQueuePost => none
  | .faultQueueConsumerIndex _ => none
  | .replayDoorbell _ => none
  | .serviceDoorbell _ _ => none
  | .timebaseWrap _ => none
  | .freezeRequestArrival _ => none
  | .freezeMessage _ => none
  | .capsuleAssembly => none
  | .hostFreezeRequest => none
  | .capsuleRetrieve _ _ => none
  | .capsuleAcknowledge _ _ => none
  | .lcPeriodicFlush _ => none
  | .dramCommandSlot _ => none
  | .dramAccessComplete _ => none
  | .hbmAlert _ => none
  | .swapLineStep _ => none
  | .migrationLineCopy _ => none
  | .notificationPost => none
  | .hpnconsWrite _ => none
  | .hostDataResponse _ _ _ _ => none
  | .homeEviction _ => none
  | .snpData _ _ => none
  | .snpInv _ _ => none
  | .snpCur _ _ => none
  | .memRd _ _ _ => none
  | .memWr _ _ _ _ _ => none
  | .biRspS _ _ _ => none
  | .biRspI _ _ _ => none
  | .functionLevelReset => none
  | .flitReceive _ _ => none
  | .crcErrorReplay _ => none
  | .portRetrain _ => none
  | .retrainTimeout _ => none
  | .postedWriteAck _ => none
  | .powerGood => none
  | .hostLinkTrained _ _ => none
  | .hostLinkTimeout => none
  | .memoryTrained => none
  | .firmwareAuthenticate => none
  | .firmwareImageLoad _ => none
  | .rollbackAdvance _ => none
  | .warmReset => none
  | .coldReset => none
  | .throttleUpdate _ _ => none
  | .thermalAlert => none
  | .pwrlimWrite _ => none
  | .hclkWrite _ _ => none
  | .tlbinv _ _ => none
  | .ctxend _ _ => none
  | .qbind _ => none
  | .lcbase _ _ => none
  | .lcflush _ => none
  | .lcctl _ _ => none
  | .keyctlGenerate _ => none
  | .keyctlDestroy _ => none
  | .keyctlPlain _ => none
  | .missClear _ _ => none
  | .hpsel _ _ => none
  | .hpcnt _ _ => none
  | .migcmd _ => none
  | .swapcmd _ => none
  | .causkid _ => none
  | .sysregWrite _ _ _ => none
  | .portTrained _ _ => none
  | .launchResume _ => none
  | .powerLoss => none

end Sys2Proof
end

