-- ==== Sys2Proof/Config.lean ====
section
/-! DEFINITION. What the manual leaves to the part or to chance: every constant here is opaque, so nothing proved about
the machine can rest on a value of it. Each is named in a row of the assumption log. -/

namespace Sys2Proof.Config

/-- Free value: which unit takes the `n`-th step, as the quarter whose issue slot moves and, when an event comes about
instead of an issue, that event. The manual orders the part's agents only as its rules say (log entry 1). -/
opaque nextTurn : Nat → Nat × Option Instr

/-- Free value: how many cycles pass between the `n`-th step and the next beyond one (log entry 2). -/
opaque stepCycles : Nat → Nat

/-- R36: a core's CYCLE says nothing of another core's: how many cycles before the package entered stage 3 the cluster of that
number was released is free (log entry 2). -/
opaque releaseLead : Nat → BitVec 32

/-- R207: the slice hash of a line within a die is the part's; programs need not rely on it (log entry 3). -/
opaque l2Slice : Nat → Nat

/-- R211: the set of an L2 slice that a line falls into is the part's (log entry 3). -/
opaque l2Set : Nat → Nat

/-- R199: the hash that picks a slice of a fused L1 is the part's (log entry 3). -/
opaque fusedSlice : Nat → Nat

/-- R128: a special function is a fixed function of its input bits and modifiers whose bits the manual does not list.
The first argument numbers the function, the second its input, the third its modifiers (log entry 4). -/
opaque specialFunction : Nat → BitVec 32 → Nat → BitVec 32

/-- R384: the byte that decryption under one key yields of a byte written under another (log entry 5). -/
opaque decryptUnder : Nat → Nat → Nat → BitVec 8 → BitVec 8

/-- Free value: a choice among outcomes that a rule allows, drawn afresh for each count (log entry 6). -/
opaque choice : Nat → Nat

/-- Free values: several choices of one step, by count and number (log entry 6). -/
opaque choices : Nat → Nat → Nat

/-- Free value: what a scratchpad line holds once its region is released with the line live or dropped (log entry 16). -/
opaque releasedLine : Nat → BitVec 1024

/-- R386, R419: the HBM4 channel of a quay die on which a line lies, by the mask of the channels present (log entry 24). -/
opaque dramChannel : BitVec 384 → Nat → Nat

/-- R382, R395: whether a host HDM decoder may address a device-memory frame, by the words of the bridge's configuration space, where its
four decoders stand (log entry 25). -/
opaque hostShared : List (Nat × BitVec 32) → Nat → Bool

/-- R401: the packages of the Causk domain, by index (log entry 18). -/
opaque domainPackage : Nat → Bool

/-- R399: whether a Causk port reaches a peer package (log entry 18). -/
opaque portReaches : Nat → Nat → Bool

/-- R418: whether an image's signature is valid under the fused firmware key (log entry 7). -/
opaque signatureValid : Image → Bool

/-- R349: the digest of a capsule view, of its contents as a list of words (log entry 8). -/
opaque sha384 : List (BitVec 128) → BitVec 384

/-- R349: the signature of a digest under the device identity key, r and s (log entry 8). -/
opaque sign : BitVec 384 → BitVec 768

/-- R349: HASH32, keyed by the device identity and the freeze number, over a context ID (log entry 8). -/
opaque hash32 : BitVec 32 → BitVec 12 → BitVec 32

/-- R348: the digest of the device identity public key (log entry 8). -/
opaque deviceKeyId : BitVec 384

/-- R418: the image the module's flash holds (log entry 7). -/
opaque flashImage : Image

end Sys2Proof.Config
end

