-- ==== Sys2Proof/Machine/State.lean ====
section
/-! DEFINITION. The state of one L7 package as plain data, the reasons a step can stop, and the state right after a
cold reset. Collections are tables: lists of a numeric key and a value. Each field cites the rule that names it. -/

namespace Sys2Proof.Machine

open Sys2Proof

/-- A table: key and value. Tables of words and bytes are kept sorted with no entry at the default. -/
abbrev Tab (α : Type) := List (Nat × α)

/-! ### Threads and warps -/

/-- R107: an active loop: its counter, its start and the first run after its body. -/
structure Loop where
  lcn : Nat
  start : VAddr
  stop : VAddr
  deriving DecidableEq, Repr

/-- Where a thread stands with respect to its next instruction. -/
inductive Status where
  /-- It may be chosen when it is ready (R138); STATE 2, 3 or 4 of R320. -/
  | running
  /-- R109: it has exited; STATE 1. -/
  | exited
  /-- R141, R314: stopped at a faulting instruction until its warp enters the handler. -/
  | stopped
  /-- R144: it waits with its slot free, in the wait of that number; STATE 6 for LAUNCH.PARK, JOIN and EVWAIT. -/
  | waiting (w : Nat)
  /-- R327: it waits for the reply to the service entry of that number; STATE 5. -/
  | service (seq : BitVec 32) (d : Nat)
  deriving DecidableEq, Repr

/-- R320: the cause and address a lane recorded when it entered a handler. -/
structure LaneCause where
  code : BitVec 16
  addr : BitVec 64
  deriving DecidableEq, Repr

/-- R9: the architectural state of one thread, with the fields that say when its next run may start. -/
structure Thread where
  /-- R9: PC. -/
  pc : VAddr
  /-- R9: run position, 0 to 23. -/
  pos : BitVec 5
  /-- R324: it has executed PREACK at the level it is in. -/
  acked : Bool
  /-- R320: the header of the run the thread stands inside; zero at a run header. -/
  rhdr : BitVec 32
  /-- R362: the run address of the run the thread stands inside. -/
  runAt : VAddr
  /-- R27: it came to its run address by falling through the end of a run. -/
  fell : Bool
  /-- R10: the V registers of the thread's lane, by number. -/
  regs : Tab Word
  /-- R9: P0 to P11. -/
  preds : BitVec 12
  /-- R16: LC0 to LC2. -/
  lcs : Tab Word
  /-- R107: active loops, innermost first. -/
  loops : List Loop
  /-- R30: the hidden return stack, newest first, at most 16 entries. -/
  hidden : List VAddr
  /-- R9: return-spill depth. -/
  spill : BitVec 9
  status : Status
  /-- R362: the cycle from which the thread stands at its current instruction or run. -/
  readySince : Nat
  /-- R143: the cycle in which it became ready for its current run; none while it is not. -/
  readyAt : Option Nat
  /-- R110: SLEEP holds the next run back until this cycle. -/
  notBefore : Nat
  /-- R110: YIELD holds the thread back from one arbitration. -/
  yielded : Bool
  /-- R110: the pending WAITF mask. -/
  wmask : BitVec 12
  /-- R321: causes by level, the current level first. -/
  causes : List LaneCause
  /-- R331: the address of a data error not yet raised, by the 56 bits of PDADDR; zero when none. -/
  pdaddr : BitVec 56
  /-- R331: a cause that it takes at its first instruction not yet issued, once the wait it stands in has ended. -/
  owed : Option LaneCause
  deriving DecidableEq, Repr

/-- R159, R170: a valid reservation record: its descriptor image and its plane bit. -/
structure Reservation where
  desc : BitVec 256
  plane : Bool
  deriving DecidableEq, Repr

/-- R168, R179 to R181: the three product instructions. -/
inductive ProductKind where
  | mma | mmag | mmat
  deriving DecidableEq, Repr

/-- R159: progress of one product instruction, issued and not retired, in the fabric queue or suspended (R189). -/
structure Product where
  wid : Nat
  kind : ProductKind
  /-- R319: the 64-bit encoding. -/
  enc : BitVec 64
  /-- R319: the address of the instruction. -/
  pc : VAddr
  /-- R319: the next K-step. -/
  nextK : Nat
  /-- R179: the number of K-steps. -/
  steps : Nat
  /-- R319: plane bit of each record as it stood at issue. -/
  planes : BitVec 8
  /-- R319: the flag the instruction counts. -/
  flag : Option Nat
  /-- R166: the rows whose thread executes. -/
  rows : BitVec 32
  /-- R179: the A rows that came from registers, as they stood at issue, by lane. -/
  regA : Tab (List Word)
  /-- R180: the groups: first row, number of rows and record of each. -/
  groups : List (Nat × Nat × Nat)
  /-- R181: the MMAT descriptor; zero otherwise. -/
  desc : BitVec 512
  /-- R168: a K-step of the instruction is in the fabric. -/
  inFabric : Bool
  /-- R168, R190: its place in the issue order of its quarter. -/
  issued : Nat
  /-- R181, R242: the pts of the warp at issue -/
  ts : LTime
  /-- R191: the K-step before which a watchpoint has been reported -/
  seen : Option Nat
  /-- R181: MMAT: its team's rendezvous, its number w in the team, and the scale bytes delivered with the current slabs -/
  team : Nat
  tile : Nat
  aScales : Nat
  bScales : Nat
  deriving DecidableEq, Repr

/-- R315, R319: a load deferred by a trap: its outstanding operation and the flag it counts. -/
structure Deferred where
  op : Nat
  pc : VAddr
  flag : Option Nat
  lanes : BitVec 32
  deriving DecidableEq, Repr

/-- R134, R301, R318: where a warp's context is held. -/
inductive Residence where
  /-- resident: core, quarter, warp slot and register base -/
  | resident (core quarter slot base : Nat)
  /-- R301: the parking write is under way; the warp still holds its slot -/
  | parking (core quarter slot base : Nat)
  | parked
  /-- R324, R325: saved by pre-emption: acknowledged by PREACK or by force -/
  | saved (forced : Bool)
  | released
  deriving DecidableEq, Repr

/-- R311 to R315: a trap whose entry has not yet come about. -/
structure TrapRequest where
  /-- R319 CODE. -/
  code : BitVec 16
  /-- R319 KIND: 0 synchronous or software, 1 pre-emption, 2 resumption. -/
  kind : Nat
  /-- R319 INFO. -/
  info : BitVec 64
  /-- R319 GROUPMASK. -/
  group : BitVec 32
  /-- R319 OTHERW. -/
  others : BitVec 16
  /-- R313: the cause and address of each lane that has one. -/
  lanes : Tab LaneCause
  deriving DecidableEq, Repr

/-- R17, R136, R159, R231, R311: a warp. -/
structure Warp where
  block : Nat
  /-- R133: index in the block. -/
  index : Nat
  /-- R10: registers allocated per lane. -/
  alloc : Nat
  residence : Residence
  threads : Tab Thread
  /-- R17: F0 to F11. -/
  flags : Tab (BitVec 6)
  /-- R268: the latest completion time counted on each flag since it was last observed. -/
  flagTimes : Tab LTime
  /-- R231. -/
  pts : LTime
  ots : LTime
  /-- R233: boundaries of 1,024 cycles passed, of those since the package's clusters were released -/
  crept : Nat
  /-- R136: PART, the tile size. -/
  part : Nat
  /-- R159: MMODE. -/
  mmode : Bool
  /-- R159: reservation records 0 to 7; a record not listed is invalid. -/
  records : Tab Reservation
  /-- R311: 0 outside any handler, 1 user level, 2 kernel level. -/
  level : Nat
  trap : Option TrapRequest
  /-- R323: a pre-emption not yet taken. -/
  preempt : Bool
  /-- R325: the grace period has ended before the warp acknowledged. -/
  graceOver : Bool
  /-- R319: KIND of the level-1 frame in force. -/
  frameKind : Nat
  /-- R189, R315: counts held while the warp is in a handler, by level and flag (16 × level + flag). -/
  held : Tab (BitVec 6)
  /-- R189: suspended products, oldest first, with the level whose trap suspended them. -/
  suspended : List (Nat × Product)
  /-- R315: deferred loads, oldest first, with the level whose trap deferred them. -/
  deferred : List (Nat × Deferred)
  /-- R352: matching is suppressed for the next execution of the instruction at this address. -/
  noWatch : Option VAddr
  /-- R353: the engine queue (engine, context) whose stop raised the WATCH in force. -/
  watchQueue : Option (Nat × Nat)
  /-- R353: stopped queues (engine, context) whose WATCH the warp has yet to take, with INFO -/
  engineWatches : List (Nat × Nat × BitVec 64)
  /-- R318: index of the warp's save slot. -/
  saveSlot : Nat
  /-- R187: the barrier object, as core and byte offset, and the generation token of the BWAIT at which a trap stopped every live thread -/
  stoppedOn : Option (Nat × Nat × Nat)
  deriving DecidableEq, Repr

/-- One thread of a group: its warp and its lane. -/
structure Member where
  wid : Nat
  lane : Nat
  deriving DecidableEq, Repr

/-- R139: a group that holds a quarter's issue slot, with the warp of its seed (R361). -/
structure Group where
  members : List Member
  seed : Nat
  deriving DecidableEq, Repr

/-! ### Waits with the slot free -/

/-- What a wait that ends by retrying its instruction waits for. -/
inductive Retry where
  /-- R267: fewer than 64 uncompleted commands of the context on the engine -/
  | engineRoom (eng ctx : Nat)
  /-- R281: room in the ring object at this scratchpad address (core line address) -/
  | ringRoom (core : Nat) (off : Nat)
  /-- R327: room for that many entries in the context's service ring -/
  | serviceRoom (ctx count : Nat)
  /-- R330: the outstanding fault on a page -/
  | pageFault (ctx page : Nat) (kind : Access) (die : Nat)
  /-- R394: the page's translation carries WBLK -/
  | writeBlocked (ctx page : Nat)
  /-- R303: a record leaves the queue -/
  | queueRoom (q : Nat)
  /-- R315: a load on an absent line is delivered -/
  | absentRoom (wid : Nat)
  deriving DecidableEq, Repr

/-- What a group waits for (R144), with the instruction's own fields. -/
inductive WaitKind where
  /-- with the lines written back so far, by warp -/
  | fence (f : XM) (lines : Tab Nat)
  /-- with the counted fills issued before it: engine queue and sequence number -/
  | crrel (f : XM) (fills : List (Nat × Nat))
  | barv (f : XE)
  | bwait (f : XE)
  | rawait (f : XE)
  | tkwait (f : XE)
  /-- with the number of threads whose records have been submitted, and the queue that had no room for the next -/
  | launch (f : XE) (done : Nat) (queue : Option Nat)
  | join (f : XE)
  | evsig (f : XE)
  | evwait (f : XE)
  | sgset (f : XS)
  /-- with the number of threads whose writes have taken effect -/
  | swr (f : XS) (served : Nat)
  | savex (f : XS)
  | restx (f : XS)
  /-- R354: until the change applies everywhere; a change not yet made is watchpoint k, or every one, with its descriptor or cleared -/
  | watch (change : Option (Option Nat × Option (BitVec 512)))
  /-- R356: until step 5 of the freeze that answers the request -/
  | snapshot (request : Nat)
  | tret (f : XS)
  /-- with the descriptor and its address -/
  | mmat (f : X3) (desc : BitVec 512) (va : Nat)
  | retry (c : Retry)
  deriving DecidableEq, Repr

/-- R144: a group waiting as one. `since` is the cycle the wait began; `parks` that its threads count toward parking. -/
structure Wait where
  members : List Member
  len : Nat
  kind : WaitKind
  since : Nat
  parks : Bool
  deriving DecidableEq, Repr

/-! ### Long-latency operations -/

/-- R208: the kinds of a global load; LDRO is the read-only path of R209. -/
inductive LoadKind where
  | leased | stale | fresh | readOnly
  deriving DecidableEq, Repr

/-- One thread's destination of an outstanding operation: the register, the access size in bytes, the physical address and,
once served, the value. -/
structure Dest where
  wid : Nat
  lane : Nat
  reg : Nat
  size : Nat
  sext : Bool
  va : BitVec 64
  pa : Nat
  val : Option (BitVec 128)
  deriving DecidableEq, Repr

/-- R71: the long-latency memory operations. -/
inductive OpKind where
  /-- consuming under .c -/
  | load (consume : Bool)
  | atomic
  /-- OBLD into operand-buffer lines from `first`, of that quarter, for that record; consuming under .c -/
  | obld (quarter first record : Nat) (consume : Bool)
  deriving DecidableEq, Repr

/-- R17: an outstanding long-latency memory operation: which flags it counts and what it still awaits. -/
structure Op where
  kind : OpKind
  core : Nat
  pc : VAddr
  flags : List (Nat × Nat)
  dests : List Dest
  /-- R204: scratchpad lines of the operation, by core × 4096 + line. -/
  lines : List Nat
  /-- OBLD: line images as they arrive, by position. -/
  image : Tab Line
  deriving DecidableEq, Repr

/-- How far a line request has travelled (R235). -/
inductive Stage where
  | l1 | l2 | home
  /-- R401: the request is to leave over Causk -/
  | remote
  /-- R401: it has left, and waits for its reply -/
  | sent
  | served
  /-- R331, R384: its line met an error at its remote home, or a key slot there that is gone -/
  | failed (gone : Bool)
  deriving DecidableEq, Repr

/-- R235: the request of one line by a load of a core. -/
structure LineReq where
  op : Nat
  line : Nat
  /-- position of the line in an OBLD -/
  index : Nat
  kind : LoadKind
  ctx : Nat
  wid : Nat
  core : Nat
  consume : Bool
  /-- R396: the bytes that the threads' accesses touch -/
  mask : LineMask
  stage : Stage
  /-- R235: the wts of the copy that the last point held, when it renews one -/
  held : Option LTime
  data : Line
  /-- R342: the load is sampled; the line's virtual address -/
  sampled : Bool
  va : Nat
  /-- R227, R242: of a request made for an engine: the command and its issue timestamp; it is kept until the engine has taken its line -/
  keep : Option ((Nat × Nat) × LTime)
  deriving DecidableEq, Repr

/-- R216: one lane's part of an atomic. -/
structure AtomLane where
  wid : Nat
  lane : Nat
  pa : Nat
  size : Nat
  var : Nat
  b : BitVec 64
  cmp : BitVec 64
  deriving DecidableEq, Repr

/-- R241: where an ownership request stands. -/
inductive Grant where
  /-- on its way, or resent after a retry -/
  | sent
  | granted
  /-- it lost an arbitration and was told to retry -/
  | retry
  deriving DecidableEq, Repr

/-- R217, R241: the atomic of one line, on its way to its execution point: an ownership request at the home, or, where `point`
names one, a request at a point below it. -/
structure HomeReq where
  point : Option Nat
  /-- the returning operation, or none for a posted atomic -/
  op : Option Nat
  line : Nat
  ctx : Nat
  wid : Nat
  core : Nat
  /-- R241 requester index -/
  index : Nat
  /-- R306: the atomic's scope code -/
  scope : Nat
  lanes : List AtomLane
  grant : Grant
  deriving DecidableEq, Repr

/-! ### Memory hierarchy -/

/-- R231, R236, R396: a copy of a line at a point below the home. `held` names the bytes that it holds, the dirty ones among them. -/
structure Copy where
  data : Line
  held : LineMask
  dirty : LineMask
  wts : LTime
  rts : LTime
  /-- R236: when the oldest dirty byte was written -/
  dirtySince : Nat
  /-- R383: key of the last writer -/
  key : Nat
  deriving DecidableEq, Repr

/-- R381: the directory's state of a line. -/
inductive Directory where
  | home
  | diex (die : Nat)
  /-- R242: engine and command of each owner -/
  | engine (owners : List (Nat × Nat))
  | migrating
  deriving DecidableEq, Repr

/-- R396, R398: half-states: MESI of a host-window half at the bridge, and S or A of a device-memory half at the host. -/
inductive Half where
  | i | s | e | m | a
  deriving DecidableEq, Repr

/-- R231, R238, R239: what a home holds of a line beside its bytes. -/
structure HomeLine where
  wts : LTime
  rts : LTime
  cls : Nat
  renewals : Nat
  dir : Directory
  half0 : Half
  half1 : Half
  /-- R384: the key the bytes were last written under; 0 for none -/
  key : Nat
  /-- R383, R385: the key slot of the last writer of a line still cached at the home; none when DRAM holds it -/
  owner : Option Nat
  /-- R204, R386 -/
  poisoned : Bool
  /-- R386: DRAM cannot give the line: its channel has failed -/
  bad : Bool
  /-- R383: the line is held at the home, by the home slice or the memory-side cache -/
  cached : Bool
  /-- R387: the bytes written at the home since DRAM was given them -/
  dirty : LineMask
  /-- R388: the last writer was an engine -/
  byEngine : Bool
  deriving DecidableEq, Repr

/-- R211: a counted global line, live with a count or dropped, held in a die's L2. -/
structure Counted where
  die : Nat
  /-- 0 when dropped -/
  count : Nat
  data : Line
  ctx : Nat
  region : Nat
  /-- the line's virtual address -/
  va : Nat
  deriving DecidableEq, Repr

/-- R211: the state of a scratchpad line's count. -/
inductive CountState where
  | uncounted
  | live (n : Nat)
  | dropped
  deriving DecidableEq, Repr

/-- R199, R204: a line of a core's scratchpad. -/
structure ScratchLine where
  data : Line
  present : Bool
  count : CountState
  poison : Bool
  deriving DecidableEq, Repr

/-- R330: a translation held by a core's TLB: the leaf entry and the page size in bits. -/
structure TlbEntry where
  core : Nat
  ctx : Nat
  page : Nat
  bits : Nat
  leaf : BitVec 64
  deriving DecidableEq, Repr

/-- R396, R398: a request the bridge has sent to the host. -/
inductive BridgeOp where
  | rdShared | rdOwn | itoMWr | rdCurr | biSnpData | biSnpInv
  deriving DecidableEq, Repr

structure BridgeReq where
  line : Nat
  half : Bool
  op : BridgeOp
  deriving DecidableEq, Repr

/-- The memory system of the package. -/
structure Memory where
  /-- bytes at the homes, device memory and host window alike, by physical address (R378) -/
  bytes : List Host.Cell
  /-- R385: what DRAM beneath a line holds where the home's own copy differs: the bytes and their key -/
  dram : Tab (Line × Nat)
  homes : Tab HomeLine
  /-- R338: wts and rts, by quay die, of the lines that are not listed -/
  homeBase : Tab LTime
  /-- copies by point and line: point number × 2^49 + line -/
  copies : Tab Copy
  counted : Tab Counted
  /-- by core × 4096 + line -/
  scratch : Tab ScratchLine
  /-- operand-buffer lines by quarter × 512 + line (R169) -/
  opbuf : Tab Line
  /-- R231: local clocks of L1s, fused slices and L2 slices, and home clocks -/
  clocks : Tab LTime
  tlb : List TlbEntry
  ops : Tab Op
  reqs : Tab LineReq
  homeReqs : Tab HomeReq
  bridge : List BridgeReq
  /-- R389: location of frames moved by a swap, by frame number -/
  frames : Tab Nat
  /-- R246: by point, the latest wts that its bytes took on their way outward without a releasing warp -/
  moved : Tab LTime
  deriving DecidableEq, Repr

/-! ### Engines -/

/-- R272 to R278, R227, R393: what a command does. CPT and GATH carry the base of their destination: DST or XBASE, or the
claimed ring slot. -/
inductive Command where
  | cpa (elems : List (BitVec 64 × BitVec 64)) (size : Nat)
  | cpt (desc : BitVec 1024) (base : Nat)
  | cpm (desc : BitVec 256)
  | gath (desc : BitVec 512) (base : Nat)
  | scat (desc : BitVec 512)
  | coll (desc : BitVec 512) (scope : Nat)
  | prefb (base : BitVec 64) (len : Nat)
  deriving DecidableEq, Repr

/-- A destination line that a started command has yet to write, by its virtual address: the bytes and which of them. -/
structure LineWrite where
  va : Nat
  data : Line
  mask : LineMask
  deriving DecidableEq, Repr

/-- R266, R267: a tile task. -/
structure Task where
  seq : BitVec 32
  cmd : Command
  ctx : Nat
  core : Nat
  block : Nat
  launch : Nat
  wid : Nat
  /-- R17: warps that count it and their flag -/
  flags : List (Nat × Nat)
  /-- R242: issue timestamp -/
  ts : LTime
  scope : Nat
  fresh : Bool
  /-- R271 .cnt: the count, 0 for the region's default -/
  cnt : Option Nat
  /-- R268 .bar: the barrier objects, by core and byte offset in its scratchpad -/
  bars : List (Nat × Nat)
  /-- R281 .ring: the ring object, by core and byte offset, and the claimed CP -/
  ring : Option (Nat × Nat × Nat)
  /-- R352: a warp at level 0 of a launch with WATCHEN issued it -/
  watched : Bool
  /-- R278: a collective has met its other participants -/
  joined : Bool
  started : Bool
  writes : List LineWrite
  /-- R268: maxs of every wts assigned -/
  time : LTime
  status : BitVec 32
  /-- R353: first matching watchpoint and address -/
  hit : Option (Nat × BitVec 56)
  /-- R269: stalled on a replayable fault -/
  stalled : Bool
  /-- R278: of a collective: how many of its scope and tag the die has issued before it -/
  inst : Nat
  /-- R276: of a SCAT that combines: its indices and its source lines, by address / 128 -/
  rows : Option (List Nat × Tab Line)
  /-- R204: of a SCAT: scratchpad lines whose presence bits its issue cleared -/
  cleared : List Nat
  deriving DecidableEq, Repr

/-- R266: one command queue: one context on one engine. -/
structure EngineQueue where
  nextSeq : Nat
  tasks : List Task
  /-- R279: completed commands: sequence number, status, completion time and acquire scope -/
  done : Tab (BitVec 32 × LTime)
  /-- R278: collectives issued, by scope × 2^32 + tag -/
  instances : Tab Nat
  /-- R268, R279: maxs of the completion times of the commands that are no longer in `done` -/
  expired : Option LTime
  /-- R353 -/
  stopped : Bool
  deriving DecidableEq, Repr

/-- R278: what a participating die sends: its buffer as words, and the fields that must agree. -/
structure RemoteChunk where
  ctx : Nat
  scope : Nat
  tag : BitVec 32
  pkg : Nat
  die : Nat
  inst : Nat
  chunk : List Word
  agree : BitVec 64
  deriving DecidableEq, Repr

/-! ### Contexts, queues, launches and blocks -/

/-- R210: a counted region. -/
structure Region where
  base : BitVec 56
  len : Nat
  count : Nat
  ufault : Bool
  launch : Nat
  block : Nat
  core : Nat
  deriving DecidableEq, Repr

/-- R225: a lease-class override. -/
structure LeaseHint where
  base : Nat
  len : Nat
  cls : Nat
  deriving DecidableEq, Repr

/-- R327: a service entry not yet delivered. -/
structure ServiceEntry where
  wid : Nat
  lane : Nat
  d : Nat
  /-- R328: the length of the TRAP.SVC after which the requester goes on. -/
  len : Nat
  first : BitVec 32
  nreq : Nat
  done : Bool
  reply : BitVec 128
  time : LTime
  deriving DecidableEq, Repr

/-- A context: its system registers (R338, R343, R364, R403), events, scope groups, regions and watchpoints. -/
structure Ctx where
  live : Bool
  ended : Bool
  ptbase : BitVec 64
  replay : Bool
  svcbase : BitVec 64
  svccnt : BitVec 32
  tenant : BitVec 16
  lcbase : BitVec 64
  lcctl : BitVec 32
  lcbins : List (BitVec 64 × BitVec 64)
  memqos : BitVec 32
  misses : Tab (BitVec 32)
  hpsel : Nat
  /-- R295: events, and the time each carries (R305) -/
  events : Tab Word
  eventTimes : Tab LTime
  /-- R306 -/
  groups : Tab (BitVec 1536)
  regions : Tab Region
  watches : Tab (BitVec 512)
  /-- latest first -/
  hints : List LeaseHint
  svcSeq : BitVec 32
  svc : Tab ServiceEntry
  /-- R328: doorbells of service entries whose DONE is still being read -/
  svcRung : List (BitVec 32)
  deriving DecidableEq, Repr

/-- R295 to R297: how a launch stands. -/
inductive LaunchStatus where
  | queued | eligible | running | complete | fatal
  deriving DecidableEq, Repr

/-- R288: a launch: its record and how far it is placed. -/
structure Launch where
  ctx : Nat
  queue : Nat
  sub : Nat
  record : BitVec 2048
  status : LaunchStatus
  /-- next linear block index to place -/
  nextBlock : Nat
  exitedBlocks : Nat
  /-- R292, R307: eligibleSince is a real time -/
  prio : Nat
  promoted : Nat
  eligibleSince : Nat
  /-- R300: since when the next block waits for a register range, its candidate core, and whether that core is reserved -/
  waiter : Option (Nat × Nat × Bool)
  /-- R303: the parent's pts at LAUNCH; none for a launch of the host -/
  floor : Option LTime
  /-- R304: latest wts; its first block's pts until there is one -/
  time : LTime
  /-- R323: the real time of the pre-emption in force -/
  preempted : Option Nat
  code : BitVec 16
  /-- R294 RIDX -/
  ridx : BitVec 24
  /-- R25: the 64 KiB pages of the code it has run, by virtual address -/
  pages : List Nat
  deriving DecidableEq, Repr

/-- R133, R203, R358: a block. -/
structure Block where
  launch : Nat
  linear : Nat
  core : Nat
  q0 : Nat
  firstLine : Nat
  lines : Nat
  warps : List Nat
  /-- R358 -/
  epoch : BitVec 10
  /-- R358: WRITER and GEN by word -/
  shadow : Tab (BitVec 6 × BitVec 10)
  /-- R318: index of the block save slot -/
  saveSlot : Nat
  /-- R324: the scratchpad is in the block save slot -/
  saved : Bool
  departed : Bool
  deriving DecidableEq, Repr

/-- R294: a completion entry not yet posted. -/
structure Completion where
  ridx : BitVec 24
  code : BitVec 16
  status : BitVec 8
  sub : BitVec 24
  deriving DecidableEq, Repr

/-- R292 to R294: a hardware queue. -/
structure Queue where
  bind : BitVec 32
  ring : BitVec 64
  cpl : BitVec 64
  save : BitVec 64
  slots : BitVec 32
  producer : BitVec 24
  consumer : BitVec 24
  nextSub : BitVec 24
  /-- launches of the queue not yet wholly placed, oldest first -/
  pending : List Nat
  completions : List Completion
  cplNext : BitVec 32
  cplCons : BitVec 32
  /-- R318: warp and block save slots in use -/
  warpSlots : List Nat
  blockSlots : List Nat
  deriving DecidableEq, Repr

/-- R285: an arrival on its way to a keystone. -/
structure Arrival where
  launch : Nat
  level : Nat
  inst : Nat
  block : Nat
  off : Nat
  time : LTime
  deriving DecidableEq, Repr

/-- R285: a keystone's count for one barrier of one instance, and the release it fans out. -/
structure Keystone where
  launch : Nat
  level : Nat
  inst : Nat
  off : Nat
  arrived : List Nat
  time : LTime
  /-- blocks still to be released -/
  releasing : List Nat
  deriving DecidableEq, Repr

/-! ### Observation -/

/-- R339, R342: a core's event recorder. -/
structure Recorder where
  ring : Tab (BitVec 128)
  wptr : BitVec 11
  wrapped : Bool
  lost : Nat
  stopped : Bool
  froze : Bool
  /-- CYCLE at the FREEZE record -/
  frozenAt : BitVec 64
  /-- R343: records of the core so far -/
  count : Nat
  /-- R340: CYCLE[63:30] of the latest TIMEBASE -/
  timebase : BitVec 34
  runs : Nat
  loads : Nat
  /-- R341: quarters whose next taken branch is recorded -/
  branch : List Nat
  /-- R342: the cycle of the latest record of each quarter; 4 for core-wide records -/
  latest : Tab Nat
  deriving DecidableEq, Repr

/-- R348: a fault record. -/
structure FaultRecord where
  code : BitVec 16
  ctx : Nat
  tenant : BitVec 16
  core : Nat
  quarter : Nat
  slot : Nat
  engine : Nat
  seq : BitVec 32
  lanes : BitVec 32
  pc : VAddr
  addr : BitVec 56
  deriving DecidableEq, Repr

/-- R345, R346: a freeze under way. -/
structure Freeze where
  fsn : BitVec 32
  origin : Nat
  ctx : Option Nat
  cause : BitVec 16
  kind : Nat
  cycle : BitVec 64
  faults : List FaultRecord
  /-- the requests it answers -/
  ids : List Nat
  /-- OCORE as records and header give it -/
  ocore : BitVec 11
  deriving DecidableEq, Repr

/-- R344, R346: a freeze request that has not reached the package keystone. -/
structure FreezeRequest where
  id : Nat
  origin : Nat
  ctx : Option Nat
  cause : BitVec 16
  kind : Nat
  cycle : BitVec 64
  faults : List FaultRecord
  deriving DecidableEq, Repr

/-- R347: the capsule held in the reserved region. -/
structure Capsule where
  freeze : Freeze
  recorders : Tab Recorder
  tenants : Tab (BitVec 16)
  missed : Nat
  rawdig : BitVec 384
  deriving DecidableEq, Repr

/-- R347 to R349: a view as retrieved. -/
structure View where
  header : BitVec 2048
  directory : List (BitVec 128)
  faults : List (BitVec 512)
  rings : Tab (Tab (BitVec 128))
  signature : BitVec 768
  deriving DecidableEq, Repr

/-- R330: an outstanding fault record of a die's walkers. -/
structure PageFault where
  ctx : Nat
  page : Nat
  kind : Access
  die : Nat
  waiters : Nat
  /-- the entry number once posted -/
  posted : Option (BitVec 32)
  engine : Nat
  seq : BitVec 32
  deriving DecidableEq, Repr

/-- R330: an entry of the host fault queue that is not yet posted: a fault record (by key) or a context's end. -/
inductive FaultEntry where
  | page (ctx page : Nat) (kind : Access) (die : Nat)
  | ended (ctx : Nat) (code : BitVec 16) (cause : Nat) (die : Nat) (page : Nat)
  deriving DecidableEq, Repr

/-- R391: an access counter. -/
structure Counter where
  ctx : Nat
  page : Nat
  count : Nat
  deriving DecidableEq, Repr

/-- R392: a notification not yet posted. -/
structure Notice where
  type : BitVec 8
  ctx : Nat
  addr : BitVec 56
  dst : BitVec 56
  count : BitVec 16
  status : BitVec 32
  deriving DecidableEq, Repr

/-- R390: a swap under way. -/
structure Swap where
  near : Nat
  far : Nat
  progress : BitVec 512
  deriving DecidableEq, Repr

/-- R393: a migration under way. -/
structure Migration where
  src : Nat
  dst : Nat
  ctx : Nat
  die : Nat
  /-- R266: its sequence number on the migration engine -/
  seq : BitVec 32
  ts : LTime
  /-- R268: maxs of every wts assigned -/
  time : LTime
  /-- lines read so far, in ascending order -/
  next : Nat
  /-- lines read and not yet written at their homes -/
  copied : Tab Line
  /-- the core whose warp wrote MIGCMD; none for the host -/
  core : Option Nat
  dirtied : Bool
  failed : Bool
  deriving DecidableEq, Repr

/-- R384: a key slot; a live key has a generation that no other key has. -/
inductive KeySlot where
  | empty
  | live (gen : Nat)
  | plain
  | destroyed
  deriving DecidableEq, Repr

/-- R387, R388: a request at a memory channel. -/
structure DramReq where
  ctx : Nat
  cls : Nat
  deadline : BitVec 16
  line : Nat
  /-- of a write: the bytes, which of them, and their key -/
  write : Option (Line × LineMask × Nat)
  issued : Bool
  /-- R386: alerts drawn in a row -/
  alerts : Nat
  deriving DecidableEq, Repr

/-- R243: a write of the device that waits in one of the ordered flows: bytes, within one line, at a physical address. -/
structure FlowWrite where
  flow : Nat
  ctx : Nat
  pa : Nat
  bytes : Nat
  value : Nat
  deriving DecidableEq, Repr

/-- R399, R400: a Causk port: 0 down, 1 retraining, 2 up; its width code; poisoned host requests (R382); the cycles of its latest
CRC errors; since what real time it retrains. -/
structure Port where
  status : Nat
  width : Nat
  poisoned : Nat
  errors : List Nat
  since : Nat
  /-- R399: flits that may still be sent, by channel -/
  credits : Tab Nat
  /-- requests sent and not yet answered, oldest first -/
  flight : List LinkMsg
  /-- R399: flits taken in, by channel, whose credits the header of the next flit sent returns -/
  returns : Tab Nat
  deriving DecidableEq, Repr

/-- R253, R401: a posted write a peer has not acknowledged. -/
structure Posted where
  /-- the releasing warp; none for a write-back without one -/
  rel : Option Nat
  /-- of an engine command: its queue (engine × 4096 + context) and sequence number -/
  task : Option (Nat × Nat)
  peer : Nat
  line : Nat
  lost : Bool
  /-- the point that its bytes left; none for an engine or the device -/
  point : Option Nat
  mask : LineMask
  ctx : Nat
  deriving DecidableEq, Repr

/-- The host's side: MSI-X messages sent, mailbox answers, the service and doorbell state (R294, R330, R392, R397). -/
structure HostSide where
  /-- MSI-X vectors, latest first -/
  msix : List Nat
  fqNext : BitVec 32
  fqCons : BitVec 32
  faults : List PageFault
  faultEntries : List FaultEntry
  hpnNext : BitVec 32
  hpnCons : BitVec 32
  notices : List Notice
  counters : Tab Counter
  /-- R347, R350: the capsule view retrieved last -/
  view : Option View
  /-- status of the last mailbox command: none, done or NOTREADY (R417) -/
  notReady : Bool
  posted : Tab Posted
  ports : Tab Port
  /-- messages waiting to leave, oldest first: destination package, message, and its flits still to leave (R399) -/
  outbox : List (Nat × LinkMsg × Nat)
  /-- R243: the collective flow: sequence numbers given by destination package, those due by source package, and its reorder buffer -/
  collGiven : Tab Nat
  collDue : Tab Nat
  collHeld : List (Nat × RemoteChunk)
  lostPeers : List Nat
  /-- R338: the host's writes of system registers that are still to take effect, oldest first: context, selector and value -/
  writes : List (Nat × Nat × BitVec 64)
  /-- R395: the bridge's configuration space, its HDM decoders among it, by word -/
  config : Tab Word
  deriving DecidableEq, Repr

/-- The package-scope system registers of R338, R343 and R403. -/
structure SysRegs where
  khandler : BitVec 64
  fqbase : BitVec 64
  fqcnt : BitVec 32
  retrain : BitVec 32
  flowmode : BitVec 32
  qsel : BitVec 32
  rdbase : BitVec 64
  rdcnt : BitVec 32
  keySlot : Nat
  hpthresh : BitVec 32
  hpnbase : BitVec 64
  hpncnt : BitVec 32
  causkid : BitVec 32
  deriving DecidableEq, Repr

/-- R2, R419, R421, R426: what the part has. -/
structure Part where
  variant : BitVec 8
  stepping : BitVec 8
  cores : BitVec 1536
  hlen : Nat
  tlen : Nat
  slices : BitVec 384
  channels : BitVec 384
  deriving DecidableEq, Repr

/-- R415 to R418, R422: start-up, firmware and power. -/
structure Management where
  powered : Bool
  stage : BitVec 2
  fail : Bool
  failcode : BitVec 8
  fwver : BitVec 16
  rollback : BitVec 16
  staged : Option Image
  linkTrained : Bool
  hostLanes : Nat
  hostRate : Nat
  level : Nat
  tout : BitVec 16
  pin : BitVec 16
  pwrlim : BitVec 16
  /-- R422: the thermal alert has halted every cluster -/
  halted : Bool
  /-- R347: a warm reset that waits for the capsule's signature -/
  resetPending : Bool
  /-- R415: the real time of power-good or of the latest reset -/
  resetAt : Nat
  /-- R422: the real time of the latest change of LEVEL -/
  levelAt : Nat
  /-- R420: the capability list, fixed at stage 3; zero before -/
  caps : BitVec 3840
  /-- R36: the cycle at which the clusters were released -/
  released : Nat
  deriving DecidableEq, Repr

/-- R131: an instruction in a special-function queue: the function, its modifiers, and for each lane the value read. -/
structure SfuLane where
  wid : Nat
  lane : Nat
  d : Nat
  src : Word
  deriving DecidableEq, Repr

structure SfuEntry where
  fn : Nat
  ftz : Bool
  rm : Nat
  flags : List (Nat × Nat)
  /-- lanes whose set is not yet served -/
  waiting : List SfuLane
  /-- lanes whose set is served and not yet written -/
  served : List SfuLane
  deriving DecidableEq, Repr

/-- R131, R143, R168: what a quarter holds beside its warps. -/
structure Quarter where
  slot : Option Group
  wp : Nat
  lp : Tab Nat
  sfu : List SfuEntry
  fabric : List Product
  deriving DecidableEq, Repr

/-- The whole package. -/
structure State where
  /-- how many steps have come about; the argument of the free choices -/
  turn : Nat
  /-- R36, R143: cycles of the arithmetic clock -/
  now : Nat
  /-- R423: real time, in 720,720ths of a cycle at level 0 -/
  elapsed : Nat
  /-- the quarter whose issue slot the next step concerns (quarter = core × 4 + Q) -/
  focus : Nat
  /-- the event that comes about next; `none` for an issue of the focused quarter -/
  event : Option Instr
  part : Part
  mgmt : Management
  sys : SysRegs
  mem : Memory
  warps : Tab Warp
  blocks : Tab Block
  launches : Tab Launch
  queues : Tab Queue
  ctxs : Tab Ctx
  quarters : Tab Quarter
  waits : Tab Wait
  engines : Tab EngineQueue
  chunks : List RemoteChunk
  arrivals : Tab Arrival
  keystones : Tab Keystone
  /-- R268, R284: times of ring and barrier objects, by (core × 2^19 + offset) × 2048 + i: of a barrier 0 the time carried by
  the phase under way, 1024 + generation that of a completed phase, 2 present when the object is malformed (R283); of a ring 16 + slot
  the completion time of the slot -/
  objTimes : Tab LTime
  recorders : Tab Recorder
  freeze : Option Freeze
  freezeReqs : List FreezeRequest
  fsn : BitVec 32
  capsule : Option Capsule
  /-- R361: private lane-cycle counts by core × 4096 + context, then by bin × 5 + class (bin 64 is the total) -/
  laneCycles : Tab (Tab Nat)
  host : HostSide
  swaps : Tab Swap
  migrations : List Migration
  keys : Tab KeySlot
  keyGens : Nat
  dram : Tab (List DramReq)
  /-- R243: writes of the device in their flows, in sequence -/
  flows : List FlowWrite
  /-- R388: place in the window of seven slots, by channel -/
  dramSlot : Tab Nat
  /-- R386: failed channels, excluded at the next reset -/
  failedChannels : List Nat
  /-- R232: periods of 1,024 cycles counted, by clock -/
  ticks : Tab Nat
  /-- R365: periods of 65,536 cycles after which a core's counts were added, by core -/
  lcFlushed : Tab Nat
  /-- R292: the queue served last -/
  lastQueue : Nat
  /-- a source of numbers for warps, blocks, launches, operations, requests and waits -/
  fresh : Nat
  deriving DecidableEq, Repr

/-- The reasons the machine stops. -/
inductive Fault where
  /-- Raised by `step` when the module has no power and the next event is not the one that brings it back (R347, R415).
  Safe: nothing of the package runs without power. -/
  | noPower
  deriving DecidableEq, Repr

/-- The reasons an instruction has no meaning here. -/
inductive Refusal where
  /-- An instruction the model does not cover; answered by the arms of `exec` alone. Safe. -/
  | notModelled (mnemonic : String)
  deriving DecidableEq, Repr

/-- R2: a part with every unit. R426: three stacks of 64 GB a quay die, and 256 GB of second tier each (L7-1024), rounded
down to a multiple of 16 MiB. Which variant stands here is the model's choice (log entry 9). -/
def Part.whole : Part where
  variant := 0
  stepping := 0
  cores := BitVec.allOnes 1536
  hlen := 45776 * 2 ^ 24
  tlen := 61035 * 2 ^ 24
  slices := BitVec.allOnes 384
  channels := BitVec.allOnes 384

def Memory.empty : Memory where
  bytes := []
  dram := []
  homes := []
  homeBase := []
  copies := []
  counted := []
  scratch := []
  opbuf := []
  clocks := []
  tlb := []
  ops := []
  reqs := []
  homeReqs := []
  bridge := []
  frames := []
  moved := []

/-- R415, R416, R422: after power-good, at stage 0. -/
def Management.reset : Management where
  powered := true
  stage := 0
  fail := false
  failcode := 0
  fwver := 0
  rollback := 0
  staged := none
  linkTrained := false
  hostLanes := 0
  hostRate := 0
  level := 0
  tout := 0
  pin := 0
  pwrlim := 6800
  halted := false
  resetPending := false
  resetAt := 0
  levelAt := 0
  caps := 0
  released := 0

/-- R338, R343, R403: the system registers state no reset value but where noted; zero stands (log entry 10). FLOWMODE has
the reset modes of R243: the first three flows ordered, the migration engine unordered. -/
def SysRegs.reset : SysRegs where
  khandler := 0
  fqbase := 0
  fqcnt := 64
  retrain := 0
  flowmode := 7
  qsel := 0
  rdbase := 0
  rdcnt := 256
  keySlot := 0
  hpthresh := 0
  hpnbase := 0
  hpncnt := 64
  causkid := 0

def HostSide.reset : HostSide where
  msix := []
  fqNext := 0
  fqCons := 0
  faults := []
  faultEntries := []
  hpnNext := 0
  hpnCons := 0
  notices := []
  counters := []
  view := none
  notReady := false
  posted := []
  ports := []
  outbox := []
  collGiven := []
  collDue := []
  collHeld := []
  lostPeers := []
  writes := []
  config := []

/-- The package right after a cold reset: stage 0, no context, queue, launch, block or warp, memory with nothing listed, and
the next step an issue of quarter 0, whose slot is free. -/
def State.reset : State where
  turn := 0
  now := 0
  elapsed := 0
  focus := 0
  event := none
  part := Part.whole
  mgmt := Management.reset
  sys := SysRegs.reset
  mem := Memory.empty
  warps := []
  blocks := []
  launches := []
  queues := []
  ctxs := []
  quarters := []
  waits := []
  engines := []
  chunks := []
  arrivals := []
  keystones := []
  objTimes := []
  recorders := []
  freeze := none
  freezeReqs := []
  fsn := 0
  capsule := none
  laneCycles := []
  host := HostSide.reset
  swaps := []
  migrations := []
  keys := []
  keyGens := 0
  dram := []
  flows := []
  dramSlot := []
  failedChannels := []
  ticks := []
  lcFlushed := []
  lastQueue := 255
  fresh := 0

end Sys2Proof.Machine
end

