-- ==== Sys2Proof/Machine/Table.lean ====
section
/-! DEFINITION. Operations on tables and on the bytes of memory. A table of words or bytes lists no entry at its default, and
every table lists its keys in rising order; memory is such a table of bytes whose default is zero. -/

namespace Sys2Proof.Machine

open Sys2Proof

variable {α : Type}

def Tab.get? : Tab α → Nat → Option α
  | [], _ => none
  | (k, v) :: t, a => if a = k then some v else Tab.get? t a

/-- Writes the entry of a key, at its place in the order. -/
def Tab.put : Tab α → Nat → α → Tab α
  | [], a, x => [(a, x)]
  | (k, v) :: t, a, x => if a < k then (a, x) :: (k, v) :: t else if a = k then (a, x) :: t else (k, v) :: Tab.put t a x

/-- Removes the entry of a key. -/
def Tab.del : Tab α → Nat → Tab α
  | [], _ => []
  | (k, v) :: t, a => if a = k then Tab.del t a else (k, v) :: Tab.del t a

def Tab.getD (t : Tab α) (a : Nat) (d : α) : α := (Tab.get? t a).getD d

/-- Writes a table that lists no entry at its default. -/
def Tab.set [DecidableEq α] (d : α) (t : Tab α) (a : Nat) (x : α) : Tab α := if x = d then Tab.del t a else Tab.put t a x

/-- Changes the entry of a key that is listed. -/
def Tab.modify (t : Tab α) (a : Nat) (f : α → α) : Tab α :=
  match Tab.get? t a with
  | some x => Tab.put t a (f x)
  | none => t

def Tab.keys (t : Tab α) : List Nat := List.map (fun e => e.1) t

def Tab.vals (t : Tab α) : List α := List.map (fun e => e.2) t

/-- The keys rise strictly from above a bound, and no entry stands at the default. -/
def Tab.canonFrom [DecidableEq α] (d : α) : Option Nat → Tab α → Bool
  | _, [] => true
  | lo, (k, v) :: t => (match lo with | none => true | some l => decide (l < k)) && decide (v ≠ d) && Tab.canonFrom d (some k) t

def Tab.canon [DecidableEq α] (d : α) (t : Tab α) : Bool := Tab.canonFrom d none t

/-! ### Bytes -/

/-- What a byte of memory that nothing has written reads as (log entry 11). -/
def unlisted : Byte := 0

/-- The canonical form of memory: addresses strictly rising, no entry equal to what an unlisted address reads as. -/
def Memory.wf (m : Memory) : Bool := Tab.canon unlisted m.bytes

/-- The byte at a physical address. -/
def Memory.byte (m : Memory) (a : Nat) : Byte := Tab.getD m.bytes a unlisted

def Memory.setByte (m : Memory) (a : Nat) (b : Byte) : Memory := { m with bytes := Tab.set unlisted m.bytes a b }

/-- R7: the little-endian number in n bytes from an address, each byte read by `f`. -/
def littleEndian (f : Nat → Byte) (a : Nat) : Nat → Nat
  | 0 => 0
  | n + 1 => (f a).toNat + 256 * littleEndian f (a + 1) n

/-- The n low bytes of a number, lowest first. -/
def bytesOf (v : Nat) : Nat → List Byte
  | 0 => []
  | n + 1 => BitVec.ofNat 8 v :: bytesOf (v / 256) n

def Memory.read (m : Memory) (a n : Nat) : Nat := littleEndian m.byte a n

/-- Writes bytes from an address on. -/
def Memory.write (m : Memory) (a : Nat) : List Byte → Memory
  | [] => m
  | b :: l => (m.setByte a b).write (a + 1) l

/-- Writes those bytes of a list whose mask bit is set. -/
def Memory.writeMasked (m : Memory) (a : Nat) (mask : Nat) : List Byte → Memory
  | [] => m
  | b :: l => (if mask % 2 = 1 then m.setByte a b else m).writeMasked (a + 1) (mask / 2) l

/-! ### Lines -/

/-- A mask of bytes as a mask of bits. -/
def spread (mask : Nat) : Nat → Nat
  | 0 => 0
  | n + 1 => (if mask % 2 = 1 then 255 else 0) + 256 * spread (mask / 2) n

def maskBits (mask : LineMask) : Line := BitVec.ofNat 1024 (spread mask.toNat 128)

/-- R202: the bytes of `new` where the mask is set, of `old` elsewhere. -/
def mergeLine (old new : Line) (mask : LineMask) : Line := let m := maskBits mask; (old &&& ~~~m) ||| (new &&& m)

/-- n bytes at an offset of a line, as a number. -/
def lineRead (d : Line) (off n : Nat) : Nat := d.toNat / 256 ^ off % 256 ^ n

/-- The mask of n bytes at an offset. -/
def byteMask (off n : Nat) : LineMask := BitVec.ofNat 128 ((2 ^ n - 1) * 2 ^ off)

/-- n bytes placed at an offset. -/
def lineValue (off n v : Nat) : Line := BitVec.ofNat 1024 (v % 256 ^ n * 256 ^ off)

/-- A field of a record read from memory as a number. -/
def field (v : Nat) (hi lo : Nat) : Nat := v / 2 ^ lo % 2 ^ (hi + 1 - lo)

/-- A field of a record put in place. -/
def place (lo : Nat) (v : Nat) : Nat := v * 2 ^ lo

/-- Folds over a list while an operation answers a state; none ends the fold. -/
def foldSome {β : Type} (f : α → β → Option α) : α → List β → Option α
  | s, [] => some s
  | s, b :: l => match f s b with | some t => foldSome f t l | none => none

/-- The first so many numbers, from a start, by a step. -/
def stepsFrom (start step : Nat) : Nat → List Nat
  | 0 => []
  | n + 1 => start :: stepsFrom (start + step) step n

/-- A list with no value twice, in the order of first occurrence. -/
def distinct {α : Type} [BEq α] (l : List α) : List α := l.foldl (fun acc x => if acc.contains x then acc else acc ++ [x]) []

/-- A list of numbers in rising order. -/
def sortNat (l : List Nat) : List Nat :=
  l.foldl (fun acc x => acc.takeWhile (decide <| · ≤ x) ++ x :: acc.dropWhile (decide <| · ≤ x)) []

/-- R230. -/
def precedes (a b : LTime) : Bool := let d := (b - a).toNat; decide (1 ≤ d) && decide (d < 2 ^ 23)
def follows (a b : LTime) : Bool := precedes b a
def maxs (a b : LTime) : LTime := if precedes a b then b else a

/-- R295: an event at e has reached v. -/
def reached (e v : Word) : Bool := decide ((e - v).toNat < 2 ^ 31)

/-- Serial comparison of two numbers of that many bits: a follows b. -/
def serialAfter (bits a b : Nat) : Bool :=
  let d := (a + 2 ^ bits - b % 2 ^ bits) % 2 ^ bits
  decide (1 ≤ d) && decide (d < 2 ^ (bits - 1))

end Sys2Proof.Machine
end

