-- ==== Sys2Proof/Machine/Operands.lean ====
section
/-! DEFINITION. Where an instruction's operands live: warps, threads, registers, pairs and quadruples, predicates, and the
fields that a 16-bit or 32-bit form stands for (R10 to R14, R63 to R67). -/

namespace Sys2Proof.Machine

open Sys2Proof

/-! ### Places -/

/-- R306: cluster and die of a core; quarters are numbered core × 4 + Q. -/
def clusterOf (core : Nat) : Nat := core / 96
def dieOf (core : Nat) : Nat := core / 384
def coreOfQuarter (q : Nat) : Nat := q / 4

def State.warp? (s : State) (w : Nat) : Option Warp := Tab.get? s.warps w

def State.modWarp (s : State) (w : Nat) (f : Warp → Warp) : State := { s with warps := Tab.modify s.warps w f }

def State.putWarp (s : State) (w : Nat) (x : Warp) : State := { s with warps := Tab.put s.warps w x }

def State.thread? (s : State) (m : Member) : Option Thread := (s.warp? m.wid).bind fun w => Tab.get? w.threads m.lane

def Warp.modThread (w : Warp) (lane : Nat) (f : Thread → Thread) : Warp := { w with threads := Tab.modify w.threads lane f }

def State.modThread (s : State) (m : Member) (f : Thread → Thread) : State := s.modWarp m.wid (·.modThread m.lane f)

/-- Every member's thread is changed. -/
def State.modMembers (s : State) (l : List Member) (f : Thread → Thread) : State := l.foldl (fun t m => t.modThread m f) s

def State.block? (s : State) (b : Nat) : Option Block := Tab.get? s.blocks b

def State.launch? (s : State) (l : Nat) : Option Launch := Tab.get? s.launches l

def State.ctx? (s : State) (c : Nat) : Option Ctx := Tab.get? s.ctxs c

def State.modBlock (s : State) (b : Nat) (f : Block → Block) : State := { s with blocks := Tab.modify s.blocks b f }

def State.modLaunch (s : State) (l : Nat) (f : Launch → Launch) : State := { s with launches := Tab.modify s.launches l f }

def State.modCtx (s : State) (c : Nat) (f : Ctx → Ctx) : State := { s with ctxs := Tab.modify s.ctxs c f }

def State.modQueue (s : State) (q : Nat) (f : Queue → Queue) : State := { s with queues := Tab.modify s.queues q f }

/-- A quarter whose entry is not listed is empty, with its pointers at zero (R143). -/
def Quarter.empty : Quarter := ⟨none, 0, [], [], []⟩

def State.quarter (s : State) (q : Nat) : Quarter := Tab.getD s.quarters q Quarter.empty

def State.modQuarter (s : State) (q : Nat) (f : Quarter → Quarter) : State :=
  { s with quarters := Tab.set Quarter.empty s.quarters q (f (s.quarter q)) }

/-- The quarter, warp slot and register base of a resident warp. -/
def Warp.place? (w : Warp) : Option (Nat × Nat × Nat × Nat) :=
  match w.residence with
  | .resident c q slot b | .parking c q slot b => some (c, q, slot, b)
  | _ => none

def Warp.core (w : Warp) : Nat := match w.place? with | some (c, _, _, _) => c | none => 0
def Warp.quarterOf (w : Warp) : Nat := match w.place? with | some (c, q, _, _) => c * 4 + q | none => 0
def Warp.slot (w : Warp) : Nat := match w.place? with | some (_, _, k, _) => k | none => 0
def Warp.resident (w : Warp) : Bool := match w.residence with | .resident .. => true | _ => false

/-- A thread that has not exited. -/
def Thread.live (t : Thread) : Bool := decide (t.status ≠ .exited)

/-- R137 LIVEMASK as lanes. -/
def Warp.liveLanes (w : Warp) : List Nat := (w.threads.filter fun e => e.2.live).map (·.1)

def maskOf (lanes : List Nat) : BitVec 32 := lanes.foldl (fun m l => m ||| BitVec.twoPow 32 l) 0

def lanesOf (m : BitVec 32) : List Nat := (List.range 32).filter fun l => m.getLsbD l

def Warp.liveMask (w : Warp) : BitVec 32 := maskOf w.liveLanes

/-- The launch record of a warp, its context and its block. -/
def State.launchOfWarp (s : State) (w : Warp) : Option Launch := (s.block? w.block).bind fun b => s.launch? b.launch

def State.ctxOf (s : State) (wid : Nat) : Nat :=
  match s.warp? wid with | some w => ((s.launchOfWarp w).map (·.ctx)).getD 0 | none => 0

/-- R288: a field of a launch record. -/
def Launch.get (l : Launch) (hi lo : Nat) : Nat := field l.record.toNat hi lo

def State.recField (s : State) (wid hi lo : Nat) : Nat :=
  match s.warp? wid with | some w => ((s.launchOfWarp w).map (·.get hi lo)).getD 0 | none => 0

/-! ### Registers (R10, R12) -/

def Thread.reg (t : Thread) (r : Nat) : Word := Tab.getD t.regs r 0
def Thread.setReg (t : Thread) (r : Nat) (v : Word) : Thread := { t with regs := Tab.set 0 t.regs r v }

def State.reg (s : State) (m : Member) (r : Nat) : Word := match s.thread? m with | some t => t.reg r | none => 0

/-- R12: bits [31:0] in the even register. -/
def State.pair (s : State) (m : Member) (r : Nat) : DWord := s.reg m (r + 1) ++ s.reg m r

/-- n consecutive registers as one number, lowest first. -/
def State.regs (s : State) (m : Member) (r : Nat) : Nat → Nat
  | 0 => 0
  | n + 1 => (s.reg m r).toNat + 2 ^ 32 * s.regs m (r + 1) n

def State.setReg (s : State) (m : Member) (r : Nat) (v : Word) : State := s.modThread m (·.setReg r v)

def State.setPair (s : State) (m : Member) (r : Nat) (v : DWord) : State :=
  (s.setReg m r (v.extractLsb' 0 32)).setReg m (r + 1) (v.extractLsb' 32 32)

/-- Writes n consecutive registers from one number. -/
def State.setRegs (s : State) (m : Member) (r v : Nat) : Nat → State
  | 0 => s
  | n + 1 => (s.setReg m r (BitVec.ofNat 32 v)).setRegs m (r + 1) (v / 2 ^ 32) n

/-! ### Predicates (R13, R88) -/

def Thread.pred (t : Thread) (p : Nat) : Bool := p == 15 || t.preds.getLsbD p

def Thread.setPred (t : Thread) (p : Nat) (v : Bool) : Thread :=
  { t with preds := (t.preds &&& ~~~(BitVec.twoPow 12 p)) ||| (if v then BitVec.twoPow 12 p else 0) }

def State.pred (s : State) (m : Member) (p : Nat) : Bool := match s.thread? m with | some t => t.pred p | none => false

def State.setPred (s : State) (m : Member) (p : Nat) (v : Bool) : State := s.modThread m (·.setPred p v)

/-- R88: a predicate source with its negation in bit 4. -/
def State.predNeg (s : State) (m : Member) (c : Nat) : Bool := s.pred m (c % 16) != c.testBit 4

/-- R13: whether the instruction executes for a thread. -/
def guardHolds (t : Thread) (g : BitVec 4) (sense : BitVec 1) : Bool := g == 15 || t.pred g.toNat != (sense == 1)

/-! ### The run header (R60) -/

def hdrLen (h : Word) : Nat := (h.extractLsb' 2 5).toNat
def hdrWait (h : Word) : BitVec 12 := h.extractLsb' 7 12
def hdrFlagA (h : Word) : Nat := (h.extractLsb' 19 4).toNat
def hdrFlagB (h : Word) : Nat := (h.extractLsb' 23 4).toNat
def hdrGuard (h : Word) : BitVec 4 := h.extractLsb' 27 4
def hdrSense (h : Word) : BitVec 1 := h.extractLsb' 31 1

/-- R27. -/
def validHeader (h : Word) : Bool :=
  h.extractLsb' 0 2 == 1#2 && decide (1 ≤ hdrLen h) && decide (hdrLen h ≤ 24) &&
  (decide (hdrFlagA h < 12) || hdrFlagA h == 15) && (decide (hdrFlagB h < 12) || hdrFlagB h == 15) &&
  (decide ((hdrGuard h).toNat < 12) || hdrGuard h == 15)

/-- R17, R71: the flag a long-latency instruction counts: its select bit takes flag A or B of the header; 15 is none. -/
def hdrFlag (h : Word) (fs : BitVec 1) : Option Nat :=
  let f := if fs == 1 then hdrFlagB h else hdrFlagA h
  if f < 12 then some f else none

/-! ### Forms (R63 to R65): the 64-bit instruction that a shorter form has the effect of. -/

/-- The group's run header, from the first of its members. -/
def State.slotHeader (s : State) : Word :=
  match (s.quarter s.focus).slot with
  | some g => match g.members.head? with
    | some m => match s.thread? m with | some t => t.rhdr | none => 0
    | none => 0
  | none => 0

/-- R65: guard and sense from the run header, D, A and B widened, and the sub-format fields at their defaults. -/
def State.form32 (s : State) (b a d : BitVec 7) : X3 where
  guard := hdrGuard s.slotHeader
  sense := hdrSense s.slotHeader
  d := d.zeroExtend 8
  a := a.zeroExtend 8
  b := b.zeroExtend 8
  c := 0
  scope := 0
  ovf := 0
  ftz := 0
  fs := 0
  ty := 0
  rm := 0

/-- R65: where the 64-bit form reads c, the 32-bit form reads d. -/
def accumulating (f : X3) : X3 := { f with c := f.d }

/-- R63: d = a = X and b = Y. -/
def State.form16 (s : State) (y : BitVec 5) (x : BitVec 6) : X3 :=
  { s.form32 (y.zeroExtend 7) 0 0 with d := x.zeroExtend 8, a := x.zeroExtend 8 }

/-- R76: the M bit as a type choice. -/
def pick (m : Bool) (no yes : BitVec 4) : BitVec 4 := if m then yes else no

/-- R76: the M bit as SCOPE[0]. -/
def scopeBit (m : Bool) : BitVec 6 := if m then 1 else 0

def flagBit (m : Bool) : BitVec 1 := if m then 1 else 0

/-- R78: the 32-bit immediate form, its 7-bit immediate sign-extended. -/
def State.imm32 (s : State) (i : BitVec 7) (a d : BitVec 7) : XI where
  guard := hdrGuard s.slotHeader
  sense := hdrSense s.slotHeader
  d := d.zeroExtend 8
  a := a.zeroExtend 8
  imm := i.signExtend 32

/-- R76: LD, ST, LDRO, LDS and STS in the 32-bit form: .b32, with B as OFF8. -/
def State.mem32 (s : State) (m : Bool) (b a d : BitVec 7) : XM where
  guard := hdrGuard s.slotHeader
  sense := hdrSense s.slotHeader
  d := d.zeroExtend 8
  a := a.zeroExtend 8
  b := 0
  c := b.signExtend 8
  var := 0
  fs := flagBit m
  size := 2
  scope := 0

/-- R333: the 32-bit forms of TRAP, TRET and PREACK. -/
def State.sys32 (s : State) (d a : BitVec 7) (simm : BitVec 16) : XS where
  guard := hdrGuard s.slotHeader
  sense := hdrSense s.slotHeader
  d := d.zeroExtend 8
  a := a.zeroExtend 8
  b := 0
  c := 0
  simm := simm

end Sys2Proof.Machine
end

