-- ==== Sys2Proof/Machine/Home.lean ====
section
/-! DEFINITION. The homes of global lines and logical time: clocks and the ageing sweep (R230 to R234), keys (R384), the memory channels
(R386 to R390), home loads and home stores (R235, R237, R238), copies and write-backs to the home (R236, R240), ownership requests (R241),
the directory (R381) and the bridge's half-states (R396, R398). -/

namespace Sys2Proof.Machine

open Sys2Proof

/-! ### Clocks (R231, R232, R234) -/

def homeClockKey (qd : Nat) : Nat := qd
def l1ClockKey (core : Nat) : Nat := 10000 + core
def fusedClockKey (cluster slice : Nat) : Nat := 20000 + cluster * 96 + slice
def l2ClockKey (die slice : Nat) : Nat := 30000 + die * 96 + slice

def clockKey : Clock → Nat
  | .home q => homeClockKey q
  | .l1 c => l1ClockKey c
  | .fused c k => fusedClockKey c k
  | .l2 d k => l2ClockKey d k

def State.clock (s : State) (k : Nat) : LTime := Tab.getD s.mem.clocks k 0

/-- R234: a time clamped against a multiple c of 2^20. -/
def clampTime (c t : LTime) : LTime := if precedes t c && decide (2 ^ 22 ≤ (c - t).toNat) then c - 0x400000#24 else t

/-- The points that hold copies, as numbers: L1s, fused L1s and the L2s of the dies. -/
def l1Point (core : Nat) : Nat := core
def fusedPoint (cluster : Nat) : Nat := 2000 + cluster
def l2Point (die : Nat) : Nat := 3000 + die

def pointNum : Point → Nat
  | .l1 c => l1Point c
  | .fused c => fusedPoint c
  | .l2 d => l2Point d

def copyKey (point line : Nat) : Nat := point * 2 ^ 49 + line

/-- The key of the clock that belongs to a point's part of a line. -/
def pointClock (point line : Nat) : Nat :=
  if point < 2000 then l1ClockKey point
  else if point < 3000 then fusedClockKey (point - 2000) (Config.fusedSlice line % 96)
  else l2ClockKey (point - 3000) (Config.l2Slice line % 96)

/-- The point to which a clock belongs. -/
def clockPoint (k : Nat) : Nat :=
  if k < 20000 then l1Point (k - 10000) else if k < 30000 then fusedPoint ((k - 20000) / 96) else l2Point ((k - 30000) / 96)

/-- R379: the home quay die of a physical address. -/
def homeQuay (pa : Nat) : Nat :=
  ((BitVec.ofNat 2 (pa / 2 ^ 16)) ^^^ (BitVec.ofNat 2 (pa / 2 ^ 18)) ^^^ (BitVec.ofNat 2 (pa / 2 ^ 20)) ^^^
    (BitVec.ofNat 2 (pa / 2 ^ 22))).toNat

def homeOf (line : Nat) : Nat := homeQuay (line * 128)

/-- R234: the sweep of the copies or home lines that a clock governs, against c. -/
def State.sweep (s : State) (k : Nat) (c : LTime) : State :=
  if k < 4 then
    { s with mem := { s.mem with
        homes := s.mem.homes.map fun (l, h) =>
          (l, if homeOf l = k then { h with wts := clampTime c h.wts, rts := clampTime c h.rts } else h)
        homeBase := Tab.set 0 s.mem.homeBase k (clampTime c (Tab.getD s.mem.homeBase k 0)) } }
  else
    { s with mem := { s.mem with
        copies := s.mem.copies.map fun (q, x) =>
          (q, if pointClock (q / 2 ^ 49) (q % 2 ^ 49) = k then { x with wts := clampTime c x.wts, rts := clampTime c x.rts } else x)
        moved := s.mem.moved.map fun (p, t) => (p, if p = clockPoint k then clampTime c t else t) } }

/-- The latest multiple of 2^20 at or before a time. -/
def sweepMark (t : LTime) : LTime := t &&& 0xF00000#24

def State.setClock (s : State) (k : Nat) (t : LTime) : State :=
  { s with mem := { s.mem with clocks := Tab.set 0 s.mem.clocks k t } }

/-- R232: a clock receives a time; crossing a multiple of 2^20 it sweeps (R234). -/
def State.bump (s : State) (k : Nat) (t : LTime) : State :=
  let old := s.clock k
  let new := maxs old t
  let s1 := s.setClock k new
  if sweepMark new = sweepMark old then s1 else s1.sweep k (sweepMark new)

/-- R232: a message carries the sender's clock, and the receiver's takes maxs with it. -/
def State.tellClock (s : State) (sender receiver : Nat) : State := s.bump receiver (s.clock sender)

/-- R232, R233: periods of 1,024 cycles since the clusters were released. -/
def State.periods (s : State) : Nat := (s.now - s.mgmt.released) / 1024

/-- maxs of every home clock (R233). -/
def State.homeClocks (s : State) : LTime := maxs (maxs (s.clock 0) (s.clock 1)) (maxs (s.clock 2) (s.clock 3))

/-! ### Physical addresses (R378, R426) -/

def isRemote (pa : Nat) : Bool := decide (2 ^ 55 ≤ pa)
def isHost (pa : Nat) : Bool := decide (2 ^ 54 ≤ pa) && decide (pa < 2 ^ 54 + 2 ^ 52)

/-- R378, R426: a physical address that something stands behind. -/
def State.backed (s : State) (pa : Nat) : Bool :=
  isRemote pa || isHost pa || decide (pa < s.part.hlen) || (decide (2 ^ 51 ≤ pa) && decide (pa < 2 ^ 51 + s.part.tlen))

/-- R378: a remote address that names this package is the local one. -/
def State.localise (s : State) (pa : Nat) : Nat :=
  if isRemote pa && pa / 2 ^ 46 % 512 == s.sys.causkid.toNat % 512 then pa % 2 ^ 46 else pa

/-! ### Home lines -/

/-- R238: a line enters its home with class 1. -/
def HomeLine.fresh : HomeLine := ⟨0, 0, 1, 0, .home, .i, .i, 0, none, false, false, false, 0, false⟩

/-- A home line that nothing has changed. -/
def State.freshHome (s : State) (line : Nat) : HomeLine :=
  let t := Tab.getD s.mem.homeBase (homeOf line) 0
  { HomeLine.fresh with wts := t, rts := t }

def State.home (s : State) (line : Nat) : HomeLine := Tab.getD s.mem.homes line (s.freshHome line)

def State.putHome (s : State) (line : Nat) (h : HomeLine) : State :=
  { s with mem := { s.mem with homes := Tab.set (s.freshHome line) s.mem.homes line h } }

/-- The bytes that stand at a line's home. -/
def State.homeData (s : State) (line : Nat) : Line := BitVec.ofNat 1024 (s.mem.read (line * 128) 128)

/-- R384: the tag of the key a context writes under; 0 for none. -/
def State.keyTag (s : State) (ctx : Nat) : Nat :=
  match Tab.get? s.keys ctx with | some (.live g) => g | _ => 0

/-- R384: reads and writes of device memory by the context raise KEYGONE. -/
def State.keyGone (s : State) (ctx : Nat) : Bool :=
  match Tab.get? s.keys ctx with | some (.live _) => false | some .plain => false | _ => true

/-- R384: what a line reads as under a key tag. Host-window lines are not encrypted. -/
def State.homeView (s : State) (line tag : Nat) : Line :=
  let h := s.home line
  let d := s.homeData line
  if h.key = tag ∨ isHost (line * 128) then d
  else BitVec.ofNat 1024 (littleEndian (fun i => Config.decryptUnder h.key tag (line * 128 + i) (BitVec.ofNat 8 (lineRead d i 1))) 0 128)

/-! ### Memory channels (R383, R386 to R390) -/

/-- The accesses that the device makes for the package, in no context, are under no key (log entry 23). -/
def packageUse : Nat := 4096

def frameOf (line : Nat) : Nat := line / 512

/-- R389, R390: the frame in which a line lies, while swaps go on too. -/
def State.locationOf (s : State) (line : Nat) : Nat :=
  let f := frameOf line
  let base := Tab.getD s.mem.frames f f
  match s.swaps.find? fun (_, w) => (w.near == f || w.far == f) && w.progress.getLsbD (line % 512) with
  | some (_, w) => let g := if w.near = f then w.far else w.near; Tab.getD s.mem.frames g g
  | none => base

/-- The HBM4 channel of a line; none where the line lies in the second tier, in the host or in another package. -/
def State.channelOf (s : State) (line : Nat) : Option Nat :=
  if isHost (line * 128) || isRemote (line * 128) || decide (2 ^ 35 ≤ s.locationOf line) then none
  else some (homeOf line * 96 + Config.dramChannel s.part.channels line % 96)

/-- R422, R423: real time of a cycle at level 0, and of one at level `l`. -/
def cycleTime : Nat := 720720
def levelTime (l : Nat) : Nat := cycleTime * 16 / (16 - min l 8)
/-- R36: 1,300 cycles at level 0 take a microsecond. -/
def usTime : Nat := 1300 * cycleTime
def msTime : Nat := 1000 * usTime

/-- R388: the 10 ns counter of the quay dies (log entry 24). -/
def State.tenNs (s : State) : BitVec 16 := BitVec.ofNat 16 (s.elapsed / (13 * cycleTime))

/-- R388, R403: the service class and the budget of an access of a context. -/
def State.serviceClass (s : State) (ctx : Nat) (engine : Bool) : Nat × Nat :=
  match s.ctx? ctx with
  | some c => (if engine then field c.memqos.toNat 3 2 else field c.memqos.toNat 1 0, field c.memqos.toNat 19 4)
  | none => (0, 0)

def State.addDram (s : State) (ch : Nat) (r : DramReq) : State := { s with dram := Tab.put s.dram ch (Tab.getD s.dram ch [] ++ [r]) }

/-- R383, R386: a line of device memory leaves its home's caches: what was changed of it is written to its channel. -/
def State.evictDevice (s : State) (line : Nat) : State :=
  let h := s.home line
  if !h.cached && h.dirty == 0 then s
  else
    let out := h.owner.getD packageUse
    let s1 := s.putHome line { h with cached := false, owner := none, dirty := 0, byEngine := false }
    if (Tab.get? s.mem.dram line).isNone then s1
    else match s.channelOf line with
    | none => { s1 with mem := { s1.mem with dram := Tab.del s1.mem.dram line } }
    | some ch =>
      if s.failedChannels.contains ch then s1.putHome line { s1.home line with poisoned := true }
      else
        let (cls, budget) := s.serviceClass out h.byEngine
        s1.addDram ch ⟨out, cls, s.tenNs + BitVec.ofNat 16 budget, line, some (s.homeData line, h.dirty, h.key), false, 0⟩

/-- R3: lines of device memory that a quay die's home slices, 96 of 8 MiB, and its memory-side cache of 64 MiB hold at most. -/
def homeLines : Nat := 96 * 65536 + 524288

/-- R3, R383: a line is held at its home; where that is one too many, another, freely chosen, leaves. -/
def State.holdLine (s : State) (line : Nat) : State :=
  let others := (s.mem.homes.filter fun (l, h) => h.cached && l != line && homeOf l == homeOf line).map (·.1)
  let t := s.putHome line { s.home line with cached := true }
  if others.length < homeLines then t
  else match others[Config.choices s.turn line % others.length]? with | some l => t.evictDevice l | none => t

/-- R387, R388: a line that the home does not hold is asked of its channel, once, in a class; writes that still wait there serve it
when they cover it whole. A failed channel gives nothing (R386). -/
def State.askDramAs (s : State) (line ctx cls budget : Nat) : State :=
  match s.channelOf line with
  | none => s
  | some ch =>
    let q := (Tab.getD s.dram ch []).filter fun r => r.line == line
    let covered := q.foldl (fun m r => match r.write with | some (_, k, _) => if r.issued then m else m ||| k | none => m) (0 : LineMask)
    if s.failedChannels.contains ch then s.putHome line { s.home line with bad := true }
    else if covered = BitVec.allOnes 128 then s.holdLine line
    else if (q.any fun r => r.write.isNone) = true then s
    else s.addDram ch ⟨ctx, cls, s.tenNs + BitVec.ofNat 16 budget, line, none, false, 0⟩

def State.askDram (s : State) (line ctx : Nat) (engine : Bool) : State :=
  let (cls, budget) := s.serviceClass ctx engine
  s.askDramAs line ctx cls budget

/-- R383: an access that reads the line finds it at the home. -/
def State.lineHeld (s : State) (line : Nat) : Bool := (s.home line).cached || (s.channelOf line).isNone

/-- Writes bytes of a line at its home under a key tag. DRAM keeps what it held until the line leaves the home's caches. A poisoned line
is made good by a write of the whole line (R386). -/
def State.writeHome (s : State) (line tag ctx : Nat) (data : Line) (mask : LineMask) : State :=
  let a := line * 128
  let old := s.homeData line
  let h := s.home line
  let host := isHost a
  let merged := mergeLine (s.homeView line tag) data mask
  let whole := if h.key = tag ∨ host then mask else BitVec.allOnes 128
  let full := mask == BitVec.allOnes 128
  let mem := s.mem.writeMasked a whole.toNat (bytesOf merged.toNat 128)
  let mem := if host ∨ (Tab.get? mem.dram line).isSome then mem else { mem with dram := Tab.put mem.dram line (old, h.key) }
  let t := ({ s with mem := mem } : State).putHome line
    { h with key := if host then h.key else tag, owner := if host then none else some ctx,
             poisoned := h.poisoned && !full, bad := h.bad && !full,
             dirty := if host then 0 else h.dirty ||| whole, byEngine := false }
  if full && !host then t.holdLine line else t

/-- R388: an engine has written the line. -/
def State.markEngine (s : State) (line : Nat) : State :=
  if (s.home line).owner.isSome then s.putHome line { s.home line with byEngine := true } else s

/-! ### Leases at the home (R235, R237, R238) -/

/-- R238: ticks of a lease class. -/
def leaseTicks (cls : Nat) : LTime := match cls with | 0 => 8 | 1 => 64 | 2 => 512 | _ => 4096

/-- R329: the levels of the table from the root: the low bit of the index and its width. -/
def tableLevels : List (Nat × Nat) := [(42, 14), (29, 13), (21, 8), (16, 5)]

/-- The entries of a table, by index, that are not wholly zero. -/
def Memory.tableEntries (m : Memory) (table w : Nat) : List Nat :=
  distinct ((m.bytes.filter fun (a, _) => decide (table ≤ a) && decide (a < table + 8 * 2 ^ w)).map fun (a, _) => (a - table) / 8)

/-- R329: a virtual address that the tables below one map to a physical address. -/
def State.mappedFrom (s : State) (pa va : Nat) : Nat → List (Nat × Nat) → Option Nat
  | _, [] => none
  | table, (lo, w) :: rest =>
    (s.mem.tableEntries (s.localise table) w).findSome? fun i =>
      let e := s.mem.read (s.localise table + 8 * i) 8
      let addr := e / 256 % 2 ^ 48 * 256
      let at_ := va + i * 2 ^ lo
      if e % 2 = 0 then none
      else if e.testBit 1 then (if s.localise addr / 2 ^ lo = pa / 2 ^ lo then some (at_ + pa % 2 ^ lo) else none)
      else s.mappedFrom pa at_ addr rest

/-- The virtual address of a context's access to a physical one: of its pages that a TLB maps there, or else of those of its tables (log
entry 106). -/
def State.virtualOf (s : State) (ctx pa : Nat) : Option Nat :=
  match s.mem.tlb.find? fun e => e.ctx = ctx && (e.leaf.toNat / 2 ^ 8 * 2 ^ 8 % 2 ^ 56) / 2 ^ e.bits == pa / 2 ^ e.bits with
  | some e => some (e.page * 2 ^ e.bits + pa % 2 ^ e.bits)
  | none => (s.ctx? ctx).bind fun c => s.mappedFrom pa 0 c.ptbase.toNat tableLevels

/-- R225, R238: the class of the latest override covering the address. -/
def State.hintClass (s : State) (ctx line : Nat) : Option Nat :=
  match s.ctx? ctx with
  | some c =>
    if c.hints.isEmpty then none
    else (s.virtualOf ctx (line * 128)).bind fun va => (c.hints.find? fun h => decide (h.base ≤ va) && decide (va < h.base + h.len)).map (·.cls)
  | none => none

/-- R238: the length of a grant. -/
def State.leaseLength (s : State) (ctx line cls : Nat) (readOnly : Bool) : LTime :=
  if readOnly then 4096 else leaseTicks ((s.hintClass ctx line).getD cls)

/-- R235, R238: the home grants a lease at `pts`. `held` is the wts of the copy that the requester renews; `trains` is false
for the reads that change neither the class nor the renewal count. Answers the times granted. -/
def State.homeLoad (s : State) (line ctx : Nat) (pts : LTime) (readOnly : Bool) (held : Option LTime) (trains : Bool) :
    LTime × LTime × State :=
  let h := s.home line
  let renewal := trains && !readOnly && held == some h.wts
  let n := if renewal then h.renewals + 1 else h.renewals
  let cls := if n = 2 then min 3 (h.cls + 1) else h.cls
  let len := s.leaseLength ctx line cls readOnly
  let rts := maxs (maxs h.rts (h.wts + len)) (pts + len)
  (h.wts, rts, (s.putHome line { h with rts := rts, cls := cls, renewals := if n = 2 then 0 else n }).bump (homeClockKey (homeOf line)) pts)

/-- R237, R238: the wts a write at the home takes, with the fall of the lease class. -/
def State.homeStore (s : State) (line : Nat) (pts : LTime) : LTime × State :=
  let h := s.home line
  let t := maxs pts (h.rts + 1)
  let leased := !precedes h.rts pts || follows (h.rts + 1) pts
  (t, (s.putHome line { h with wts := t, rts := t, cls := if leased then h.cls - 1 else h.cls,
                               renewals := if leased then 0 else h.renewals }).bump (homeClockKey (homeOf line)) t)

/-- R397: the host write rule. -/
def State.hostWriteRule (s : State) (line : Nat) : State :=
  let h := s.home line
  let q := homeClockKey (homeOf line)
  let t := maxs (s.clock q) (h.rts + 1)
  (s.putHome line { h with wts := t, rts := t }).bump q t

/-! ### The points of a core (R199, R206, R232) -/

/-- R206: the cluster runs with a fused L1: a launch that asks for one has a block there. -/
def State.fused (s : State) (cluster : Nat) : Bool :=
  s.blocks.any fun (_, b) => clusterOf b.core == cluster && !b.departed && !b.saved && (s.launch? b.launch).any fun l => l.get 433 433 == 1

/-- The first point of a core: its L1, or its cluster's fused L1. -/
def State.corePoint (s : State) (core : Nat) : Nat :=
  if s.fused (clusterOf core) then fusedPoint (clusterOf core) else l1Point core

def pointDie (p : Nat) : Nat := if p < 2000 then dieOf p else if p < 3000 then (p - 2000) / 4 else p - 3000

/-- R232: a request or an answer between a core and a line's home passes the clocks of the points between. -/
def State.carryOut (s : State) (core line : Nat) : State :=
  let l2 := pointClock (l2Point (dieOf core)) line
  (s.tellClock (pointClock (s.corePoint core) line) l2).tellClock l2 (homeClockKey (homeOf line))

def State.carryBack (s : State) (core line : Nat) : State :=
  let l2 := pointClock (l2Point (dieOf core)) line
  (s.tellClock (homeClockKey (homeOf line)) l2).tellClock l2 (pointClock (s.corePoint core) line)

/-- R232: a message each way between a point and a line's home. -/
def State.tellHome (s : State) (point line : Nat) : State := s.tellClock (pointClock point line) (homeClockKey (homeOf line))
def State.hearHome (s : State) (point line : Nat) : State := s.tellClock (homeClockKey (homeOf line)) (pointClock point line)

/-! ### Copies below the home -/

def State.copy? (s : State) (point line : Nat) : Option Copy := Tab.get? s.mem.copies (copyKey point line)

def State.putCopy (s : State) (point line : Nat) (c : Copy) : State :=
  { s with mem := { s.mem with copies := Tab.put s.mem.copies (copyKey point line) c } }

def State.dropCopy (s : State) (point line : Nat) : State :=
  { s with mem := { s.mem with copies := Tab.del s.mem.copies (copyKey point line) } }

/-- The copy holds every byte of a mask. -/
def Copy.holds (c : Copy) (mask : LineMask) : Bool := mask &&& ~~~c.held == 0
def Copy.full (c : Copy) : Bool := c.held == BitVec.allOnes 128

/-- R396: the bytes that a line's home can give: of a host line those of the halves that the bridge holds. -/
def State.homeBytes (s : State) (line : Nat) : LineMask :=
  let h := s.home line
  if isHost (line * 128) then (if h.half0 = .i then 0 else byteMask 0 64) ||| (if h.half1 = .i then 0 else byteMask 64 64)
  else BitVec.allOnes 128

/-- R3, R211: two lines fall into the same set of an L2 slice; a slice of 8 MiB has 4,096 sets of 16 ways. -/
def sameSet (a b : Nat) : Bool :=
  Config.l2Slice a % 96 == Config.l2Slice b % 96 && Config.l2Set a % 4096 == Config.l2Set b % 4096

/-- R3: lines that a point has room for: an L1 of 128 KiB, a fused L1 of 12 MiB, a set of an L2 slice. -/
def pointLines (point : Nat) : Nat := if point < 2000 then 1024 else if point < 3000 then 96 * 1024 else 16

/-- The lines, with their copies, that share a point's room with a line. -/
def State.rivals (s : State) (point line : Nat) : List (Nat × Copy) :=
  (s.mem.copies.filter fun (k, _) => k / 2 ^ 49 == point && k % 2 ^ 49 != line && (decide (point < 3000) || sameSet (k % 2 ^ 49) line)).map
    fun (k, c) => (k % 2 ^ 49, c)

/-- The ways of a line's set that live counted lines take. -/
def State.countedWays (s : State) (point line : Nat) : Nat :=
  if point < 3000 then 0 else (s.mem.counted.filter fun (l, c) => c.die == point - 3000 && c.count != 0 && sameSet l line).length

/-- R202, R240: a copy that a point may drop at any time: a clean one under no lease of its die. -/
def State.spare (s : State) (point line : Nat) (c : Copy) : Bool :=
  c.dirty == 0 && !(decide (3000 ≤ point) && decide ((s.home line).dir = .diex (point - 3000)))

/-- R3, R202: a point makes room for a line: a spare copy, freely chosen, goes where it is full; none where no copy is spare. -/
def State.makeRoom (s : State) (point line : Nat) : Option State :=
  let l := s.rivals point line
  if (s.copy? point line).isSome || decide (l.length + s.countedWays point line < pointLines point) then some s
  else
    let spare := l.filter fun (k, c) => s.spare point k c
    (spare[Config.choices s.turn point % spare.length]?).map fun (k, _) => s.dropCopy point k

/-- A copy once its dirty bytes have been written outward: those bytes, clean, with the times the write took (R236). -/
def State.cleanCopy (s : State) (point line : Nat) (c : Copy) (t : LTime) : State :=
  s.putCopy point line { c with held := c.dirty, dirty := 0, wts := t, rts := t }

def State.raisePts (s : State) (rel : Option Nat) (t : LTime) : State :=
  match rel with | some w => s.modWarp w fun x => { x with pts := maxs x.pts t } | none => s

/-- R304: the running launches of a context take a wts that its bytes were given. -/
def State.raiseLaunches (s : State) (ctx : Nat) (t : LTime) : State :=
  { s with launches := s.launches.map fun (i, l) => (i, if l.ctx == ctx && l.status == .running then { l with time := maxs l.time t } else l) }

/-- R236, R246, R304: bytes of a context that leave a point have been given a wts. The releasing warp takes it at once; a warp whose bytes
left before its release takes it then (log entry 107). -/
def State.noteMoved (s : State) (point : Nat) (rel : Option Nat) (ctx : Nat) (t : LTime) : State :=
  let u := (s.raisePts rel t).raiseLaunches ctx t
  { u with mem := { u.mem with moved := Tab.put u.mem.moved point (match Tab.get? u.mem.moved point with | some x => maxs x t | none => t) } }

/-- R236: the pts that a write-back brings: the wts of its copy and the pts of its releasing warp. -/
def State.writeBackPts (s : State) (cw : LTime) (rel : Option Nat) : LTime :=
  match rel.bind s.warp? with | some w => maxs cw w.pts | none => cw

/-- R236, R237: dirty bytes merged at the home; those of a context whose key is gone are not (R384). -/
def State.writeBackHome (s : State) (line : Nat) (c : Copy) (rel : Option Nat) : LTime × State :=
  let (t, s1) := s.homeStore line (s.writeBackPts c.wts rel)
  let lost := s.keyGone c.key && !isHost (line * 128)
  (t, if lost then s1 else s1.writeHome line (s1.keyTag c.key) c.key c.data c.dirty)

/-- R240, R381: the holder of a die-exclusive lease gives it up: the home's rts covers every lease it granted, its dirty bytes
go home, and it keeps a clean copy with its lease. -/
def State.recall (s : State) (line : Nat) : State :=
  let h := s.home line
  match h.dir with
  | .diex d =>
    let p := l2Point d
    let s0 := s.hearHome p line
    match s.copy? p line with
    | some c =>
      let s1 := (s0.tellHome p line).putHome line { h with rts := maxs h.rts c.rts, dir := .home }
      if c.dirty = 0 then s1
      else
        let (t, s2) := s1.writeBackHome line c none
        (s2.noteMoved p none c.key t).putCopy p line { c with dirty := 0 }
    | none => s0.putHome line { h with dir := .home }
  | _ => s

/-! ### Ownership requests at a home (R241) -/

/-- R28: an earlier atomic of the core on the line is still to be performed. -/
def State.earlierAtomic (s : State) (r : Nat) (h : HomeReq) : Bool :=
  s.mem.homeReqs.any fun (k, x) => decide (k < r) && x.core == h.core && x.line == h.line

/-- R241: the pointer of a home slice advances by one every cycle, over 0 to 4,095. -/
def State.slicePointer (s : State) : Nat := s.now % 4096

/-- R241: the request that wins, of some with their indices: the first index at or after the pointer, counted cyclically. -/
def arbitrationWinner {α : Type} (pointer : Nat) (l : List (α × Nat)) : Option α :=
  (l.foldl (fun (b : Option (α × Nat)) (k, i) =>
    let d := (i + 4096 - pointer) % 4096
    match b with
    | none => some (k, d)
    | some (_, e) => if d < e then some (k, d) else b) none).map (·.1)

/-- R241: of the requests for a line that are on their way to its home, and one more of that index that has come, one is granted and the
others are told to retry, with the home clock. Requests that `mine` names are the requester's own. Answers whether the one more may be
performed. -/
def State.contend (s : State) (line : Nat) (index : Option Nat) (mine : HomeReq → Bool) : Bool × State :=
  let other : Nat × HomeReq → Bool := fun (_, h) => h.line == line && h.point.isNone && !isRemote (line * 128) && !mine h
  let sent := s.mem.homeReqs.filter fun (k, h) => other (k, h) && h.grant == .sent && !s.earlierAtomic k h
  if (s.mem.homeReqs.any fun x => other x && x.2.grant == .granted) = true then (false, s)
  else
    let l := ((index.toList.map fun i => ((none : Option Nat), i)) ++ sent.map fun (k, h) => (some k, h.index))
    match arbitrationWinner s.slicePointer l with
    | none => (true, s)
    | some w =>
      let losers := sent.filter fun (k, _) => w != some k
      let t := losers.foldl (fun (t : State) (x : Nat × HomeReq) => t.carryBack x.2.core line) s
      let told (k : Nat) (h : HomeReq) : HomeReq :=
        if w == some k then { h with grant := .granted } else if (losers.any fun x => x.1 == k) = true then { h with grant := .retry } else h
      (w.isNone, { t with mem := { t.mem with homeReqs := t.mem.homeReqs.map fun (k, h) => (k, told k h) } })

/-- R241: requester indices of the bridge, of engines and of remote packages. -/
def bridgeIndex : Nat := 1536
def engineIndex (eng : Nat) : Nat := 2048 + eng % 256
def remoteIndex (pkg : Nat) : Nat := 3072 + pkg % 512

/-! ### The bridge (R396, R398) -/

def HomeLine.half (h : HomeLine) (i : Bool) : Half := if i then h.half1 else h.half0
def HomeLine.setHalf (h : HomeLine) (i : Bool) (x : Half) : HomeLine := if i then { h with half1 := x } else { h with half0 := x }

/-- The halves that a byte mask touches. -/
def halvesOf (mask : LineMask) : List Bool :=
  (if mask.extractLsb' 0 64 = 0#64 then [] else [false]) ++ (if mask.extractLsb' 64 64 = 0#64 then [] else [true])

def halfMask (mask : LineMask) (i : Bool) : BitVec 64 := if i then mask.extractLsb' 64 64 else mask.extractLsb' 0 64

def HostSide.interrupt (h : HostSide) (v : Nat) : HostSide := { h with msix := v :: h.msix }

/-- R391: the value of THRESH. -/
def State.threshold (s : State) : Nat := if s.sys.hpthresh = 0 then 256 else s.sys.hpthresh.toNat % 65536

/-- R391: a slot for a new key: the lowest free one, or that of the smallest count. -/
def counterSlot (t : Tab Counter) : Nat :=
  match (List.range (t.length + 1)).find? fun i => (Tab.get? t i).isNone && decide (i < 16384) with
  | some i => i
  | none =>
    (t.foldl (fun (best : Option (Nat × Nat)) e => match best with
      | none => some (e.1, e.2.count)
      | some b => if e.2.count < b.2 then some (e.1, e.2.count) else some b) none).map (·.1) |>.getD 0

def counterOf (t : Tab Counter) (ctx page : Nat) : Option (Nat × Counter) := t.find? fun e => e.2.ctx = ctx && e.2.page == page

/-- R391, R392: a request to the host adds one to the page's counter; reaching THRESH it posts a hot-page entry, or is set back
when the queue is full. -/
def State.countHot (s : State) (ctx line : Nat) : State :=
  match s.virtualOf ctx (line * 128) with
  | none => s
  | some va =>
    let page := va / 65536
    let (i, n) := match counterOf s.host.counters ctx page with | some (i, c) => (i, c.count) | none => (counterSlot s.host.counters, 0)
    let n' := min 65535 (n + 1)
    let hot := decide (n + 1 = s.threshold)
    let room := decide ((s.host.hpnNext - s.host.hpnCons).toNat + s.host.notices.length < s.sys.hpncnt.toNat)
    let count := if hot && !room then s.threshold - 1 else n'
    let notices := if hot && room then
        s.host.notices ++ [⟨1, ctx, BitVec.ofNat 56 (page * 65536), 0, BitVec.ofNat 16 n', 0⟩] else s.host.notices
    { s with host := { s.host with counters := Tab.put s.host.counters i ⟨ctx, page, count⟩, notices := notices } }

/-- A request of the bridge to the host, once for each half and kind. A request for host memory counts on its page. -/
def State.askHost (s : State) (ctx line : Nat) (half : Bool) (op : BridgeOp) : State :=
  if s.mem.bridge.contains ⟨line, half, op⟩ then s
  else
    let s1 : State := { s with mem := { s.mem with bridge := s.mem.bridge ++ [⟨line, half, op⟩] } }
    if isHost (line * 128) then s1.countHot ctx line else s1

/-- R396, R398: whether a device access may be performed on a half as it stands, else what is asked of the host. `write` covers
stores, atomics, engine writes and die-exclusive grants; `full`: a store that covers all 64 bytes. -/
def halfNeeds (host : Bool) (h : Half) (write full : Bool) : Option BridgeOp :=
  if host then
    match h with
    | .i => some (if !write then .rdShared else if full then .itoMWr else .rdOwn)
    | .s => if write then some .rdOwn else none
    | _ => none
  else
    match h with
    | .i => none
    | .s => if write then some .biSnpInv else none
    | _ => some (if write then .biSnpInv else .biSnpData)

/-- R381, R383, R396, R398: makes a line's home ready for an access to the bytes of a mask. An engine-owned or migrating line holds
everyone but its own commands; a lease of another die is recalled, and that of the same die too when `global` says that the
access is performed at the home itself. Answers whether the access may be performed now. -/
def State.openHome (s : State) (line ctx : Nat) (mask : LineMask) (write atomic : Bool) (die : Option Nat) (global : Bool)
    (engine : Option (Nat × Nat)) : Bool × State :=
  let h := s.home line
  let held := match h.dir with
    | .engine owners => (match engine with | some o => write && !owners.contains o | none => true)
    | .migrating => engine == none
    | _ => false
  if held then (false, s)
  else if (!write || atomic) && !s.lineHeld line then (false, s.askDram line ctx engine.isSome)
  else
    let s1 := match h.dir with | .diex d => if some d == die && !global then s else s.recall line | _ => s
    let host := isHost (line * 128)
    (halvesOf mask).foldl (fun (ok, t) i =>
      match halfNeeds host ((t.home line).half i) write (!atomic && halfMask mask i == BitVec.allOnes 64) with
      | some op => (false, t.askHost ctx line i op)
      | none => (ok, if host && write then t.putHome line ((t.home line).setHalf i .m) else t)) (true, s1)

/-- R241: the same for an ownership request, which contends with the others for the line. -/
def State.openOwned (s : State) (line ctx : Nat) (mask : LineMask) (atomic : Bool) (die : Option Nat) (global : Bool)
    (engine : Option (Nat × Nat)) (index : Nat) (mine : HomeReq → Bool) : Bool × State :=
  match s.openHome line ctx mask true atomic die global engine with
  | (true, t) => t.contend line (some index) mine
  | r => r

end Sys2Proof.Machine
end

