-- ==== Sys2Proof/Machine/Wire.lean ====
section
/-! DEFINITION. What leaves the homes: messages to other packages over Causk (R399 to R401), writes of the device (R427) and their flows
(R243), and the event recorder (R339 to R343). -/

namespace Sys2Proof.Machine

open Sys2Proof

/-! ### Causk links (R399, R400) -/

/-- R399: the virtual channel of a message. -/
def msgChannel : LinkMsg → Nat
  | .loadRequest .. | .atomRequest .. => 0
  | .loadReply .. | .atomReply .. | .errorReply .. => 1
  | .storeRequest .. | .storeReply .. => 2
  | .collChunk .. => 3
  | .credits .. => 4

/-- What a message's address-hash lane is taken from. -/
def msgHash : LinkMsg → Nat
  | .loadRequest _ _ _ line .. | .storeRequest _ _ _ line .. | .atomRequest _ _ _ line .. => line
  | .loadReply req .. | .storeReply req .. | .atomReply req .. | .errorReply req .. => req
  | .collChunk _ _ _ tag .. => tag.toNat
  | .credits .. => 0

/-- A request whose answer the sender awaits. -/
def msgAwaited : LinkMsg → Bool
  | .loadRequest .. | .atomRequest .. | .storeRequest .. => true
  | _ => false

def Port.untrained : Port := ⟨0, 0, 0, [], 0, [], [], []⟩

def State.port (s : State) (p : Nat) : Port := Tab.getD s.host.ports p Port.untrained

def State.putPort (s : State) (p : Nat) (x : Port) : State := { s with host := { s.host with ports := Tab.put s.host.ports p x } }

/-- R400: the ports that still reach a peer, those that retrain included. -/
def State.portsTo (s : State) (pkg : Nat) : List Nat := (List.range 9).filter fun p => Config.portReaches p pkg && (s.port p).status != 0

/-- The port on which a message's hash lane runs. -/
def State.portFor (s : State) (pkg : Nat) (m : LinkMsg) : Option Nat :=
  let ps := s.portsTo pkg
  ps[msgHash m % ps.length]?

/-- Bytes of a message; the spec gives the payload of a flit and no message's size (DESIGN CHOICE, log entry 116). -/
def msgBytes : LinkMsg → Nat
  | .loadRequest .. => 32
  | .loadReply .. => 152
  | .storeRequest .. => 176
  | .storeReply .. | .errorReply .. | .credits .. => 16
  | .atomRequest _ _ _ _ ops .. => 32 + 24 * ops.length
  | .atomReply _ olds .. => 24 + 8 * olds.length
  | .collChunk _ _ _ _ _ _ chunk .. => 40 + 4 * chunk.length

/-- R399: flits that a message takes; a payload is 240 bytes. -/
def msgFlits (m : LinkMsg) : Nat := (msgBytes m + 239) / 240

/-- R399: the flits of a message that have credits leave where its port is up, and give back what their headers can. Answers how many are
left. -/
def State.transmit (s : State) (pkg : Nat) (m : LinkMsg) (left : Nat) : Nat × State :=
  match s.portFor pkg m with
  | none => (left, s)
  | some p =>
    let x := s.port p
    let n := Tab.getD x.credits (msgChannel m) 0
    let k := min n left
    if x.status = 2 ∧ 0 < k then
      (left - k, s.putPort p { x with
        credits := Tab.put x.credits (msgChannel m) (n - k)
        flight := if k = left && msgAwaited m then x.flight ++ [m] else x.flight
        returns := [] })
    else (left, s)

/-- R399: the messages that wait leave in order; one that cannot leave holds back those of its port and channel alone. -/
def State.pump (s : State) : State :=
  s.host.outbox.foldl (fun t (pkg, m, n) => match t.transmit pkg m n with
    | (0, u) => u
    | (k + 1, u) => { u with host := { u.host with outbox := u.host.outbox ++ [(pkg, m, k + 1)] } }) { s with host := { s.host with outbox := [] } }

/-- R399 to R401: a message for a package; none reaches a lost peer. -/
def State.send (s : State) (pkg : Nat) (m : LinkMsg) : State :=
  if s.host.lostPeers.contains pkg then s else ({ s with host := { s.host with outbox := s.host.outbox ++ [(pkg, m, msgFlits m)] } } : State).pump

/-- R400: no port reaches a package. -/
def State.peerGone (s : State) (pkg : Nat) : Bool := s.host.lostPeers.contains pkg || (s.portsTo pkg).isEmpty

/-- The package that a remote line belongs to. -/
def remotePkg (line : Nat) : Nat := line * 128 / 2 ^ 46 % 512

/-- R331, R386, R400: a line that meets an uncorrectable error at its home, or whose package no port reaches. -/
def State.lineBad (s : State) (line : Nat) : Bool :=
  if isRemote (line * 128) then s.peerGone (remotePkg line) else (s.home line).poisoned || (s.home line).bad

/-- R232, R379: the clock of the quay die through which a request for a remote line leaves. -/
def State.gateClock (s : State) (line : Nat) : LTime := s.clock (homeClockKey (homeOf line))

def State.pts (s : State) (wid : Nat) : LTime := match s.warp? wid with | some w => w.pts | none => 0

/-- R253, R401: a write to a remote home leaves over Causk and counts as posted until it is acknowledged; its pts is that of the releasing
warp. To a peer that no port reaches it counts as lost at once (R400). -/
def State.postRemote (s : State) (line : Nat) (rel : Option Nat) (task : Option (Nat × Nat)) (point : Option Nat) (c : Copy) : State :=
  let pkg := remotePkg line
  let pts := match rel with | some w => maxs c.wts (s.pts w) | none => c.wts
  let msg := LinkMsg.storeRequest s.fresh s.sys.causkid.toNat c.key line c.data c.dirty pts (s.gateClock line)
  let lost := s.peerGone pkg
  let s1 := if lost then s else s.send pkg msg
  { s1 with host := { s1.host with posted := Tab.put s1.host.posted s.fresh ⟨rel, task, pkg, line, lost, point, c.dirty, c.key⟩ }, fresh := s.fresh + 1 }

/-- R28: a posted write of the line is still to be acknowledged, or a command of this package owns the line (R242): a later access of the
package waits for it. -/
def State.remoteBusy (s : State) (line : Nat) : Bool :=
  (s.host.posted.any fun (_, p) => p.line == line && !p.lost) || (match (s.home line).dir with | .engine _ => true | _ => false)

/-! ### Writes of the device (R427) -/

/-- R397, R427: bytes written at a line's home by the device or the host: the host write rule. -/
def State.ruleWrite (s : State) (line tag ctx : Nat) (data : Line) (mask : LineMask) : State :=
  (s.hostWriteRule line).writeHome line tag ctx data mask

/-- R381, R427: n bytes, within one line, written by the device: at the home, at the copy that stands for a counted line, whose dropped one
takes nothing, or at a remote home. None while a half must first be gained, or another request comes first. -/
def State.performWrite (s : State) (ctx pa n v : Nat) : Option State × State :=
  let line := pa / 128
  let mask := byteMask (pa % 128) n
  let data := lineValue (pa % 128) n v
  match Tab.get? s.mem.counted line with
  | some c =>
    let t : State := if c.count = 0 then s else
      { s with mem := { s.mem with counted := Tab.put s.mem.counted line { c with data := mergeLine c.data data mask } } }
    (some t, t)
  | none =>
    if isRemote pa then
      let t := s.gateClock line
      let u := s.postRemote line none none none ⟨data, mask, mask, t, t, s.now, ctx⟩
      (some u, u)
    else
      let (ok, s1) := s.openOwned line ctx mask true none true none bridgeIndex fun _ => false
      if ok then (some (s1.ruleWrite line (s1.keyTag ctx) ctx data mask), s1) else (none, s1)

/-! ### The ordered flows (R243)

A write of the event-recorder drain or of the host bridge has a place in its flow, by which it waits for its line. In the ordered mode
writes are performed in that order; in the unordered mode a free choice says which of those that wait in the reorder buffer comes
next. -/

/-- R243: the flows, by their bit in FLOWMODE: a bit of 1 is the ordered mode. -/
def collectiveFlow : Nat := 0
def drainFlow : Nat := 1
def bridgeFlow : Nat := 2
def migrationFlow : Nat := 3

def State.orderedFlow (s : State) (flow : Nat) : Bool := s.sys.flowmode.getLsbD flow

/-- R243: entries of a reorder buffer. -/
def reorderEntries : Nat := 256

/-- The writes of a flow that wait, by sequence number. -/
def State.flowWrites (s : State) (flow : Nat) : List FlowWrite := s.flows.filter fun w => w.flow == flow

def State.postFlow (s : State) (w : FlowWrite) : State := { s with flows := s.flows ++ [w] }

/-- The write that comes next of a flow: the oldest, or any of the first 256 in the unordered mode. -/
def State.nextFlowWrite (s : State) (flow : Nat) : Option FlowWrite :=
  let l := s.flowWrites flow
  if s.orderedFlow flow then l.head? else l[Config.choices s.turn flow % min reorderEntries l.length]?

/-- One write of a flow, where its line is ready. -/
def State.pumpFlow (s : State) (flow : Nat) : State :=
  match s.nextFlowWrite flow with
  | none => s
  | some w => match s.performWrite w.ctx w.pa w.bytes w.value with
    | (some t, _) => { t with flows := t.flows.erase w }
    | (none, t) => t

/-- R243: what waits in the two flows that write memory goes on. -/
def State.pumpFlows (s : State) : State := (s.pumpFlow drainFlow).pumpFlow bridgeFlow

/-- R243, R427: a write of the device to a ring or an index word, through the host-bridge flow: none while it cannot be taken. Under
the ordered mode a write that nothing of its flow precedes is performed at once. -/
def State.deviceWrite (s : State) (ctx pa n v : Nat) : Option State × State :=
  let l := s.flowWrites bridgeFlow
  if s.orderedFlow bridgeFlow && l.isEmpty then s.performWrite ctx pa n v
  else if reorderEntries ≤ l.length then (none, s)
  else let t := s.postFlow ⟨bridgeFlow, ctx, pa, n, v⟩; (some t, t)

/-! ### The event recorder (R339 to R343) -/

/-- R36: CYCLE of a core at a cycle of the arithmetic clock: the cycles since its cluster was released. -/
def State.cycleAt (s : State) (core at_ : Nat) : BitVec 64 :=
  BitVec.ofNat 64 (at_ - s.mgmt.released + (Config.releaseLead (clusterOf core)).toNat)

/-- R36: CYCLE of a core. -/
def State.cycle (s : State) (core : Nat) : BitVec 64 := s.cycleAt core s.now

def Recorder.empty : Recorder := ⟨[], 0, false, 0, false, false, 0, 0, 0, 0, 0, [], []⟩

def State.recorder (s : State) (core : Nat) : Recorder := Tab.getD s.recorders core Recorder.empty

def State.putRecorder (s : State) (core : Nat) (r : Recorder) : State :=
  { s with recorders := Tab.set Recorder.empty s.recorders core r }

/-- R340: the layout of a record. -/
def recordWord (cycle : BitVec 64) (ty ctx q slot payload : Nat) : BitVec 128 :=
  BitVec.ofNat 78 payload ++ BitVec.ofNat 2 q ++ BitVec.ofNat 4 slot ++ BitVec.ofNat 12 ctx ++ cycle.extractLsb' 6 24 ++ BitVec.ofNat 8 ty

/-- R339: one record into the ring. -/
def Recorder.push (r : Recorder) (w : BitVec 128) : Recorder :=
  { r with ring := Tab.put r.ring r.wptr.toNat w, wptr := r.wptr + 1, wrapped := r.wrapped || r.wptr == 2047, count := r.count + 1 }

/-- R343: a record is also drained to memory, through its flow. -/
def State.drain (s : State) (core n : Nat) (w : BitVec 128) : State :=
  if s.sys.rdbase = 0 then s
  else
    let cnt := s.sys.rdcnt.toNat
    let pa := s.localise (s.sys.rdbase.toNat + core * cnt * 16 + n % cnt * 16)
    (s.postFlow ⟨drainFlow, packageUse, pa, 16, w.toNat⟩).pumpFlow drainFlow

/-- The word of a record stored in its ring and drained. -/
def State.storeRecord (s : State) (core : Nat) (w : BitVec 128) : State :=
  let r := s.recorder core
  (s.putRecorder core (r.push w)).drain core r.count w

/-- R340: a TIMEBASE record for every wrap of TIME up to a cycle. -/
def State.recordTimebases (s : State) (core at_ : Nat) : State :=
  let r := s.recorder core
  let base := ((s.cycleAt core at_).extractLsb' 30 34).toNat
  (List.range (base - r.timebase.toNat)).foldl (fun t i =>
    let b := r.timebase.toNat + i + 1
    let u := t.storeRecord core (recordWord (BitVec.ofNat 64 (b * 2 ^ 30)) 0x01 0 0 0 b)
    u.putRecorder core { u.recorder core with timebase := BitVec.ofNat 34 b }) s

/-- R339, R340, R342: writes a record of an event in a cycle; `place` is the quarter of the event, or 4 for a core-wide one. A second
event of a place in one cycle is lost. A stopped recorder records nothing. -/
def State.recordIn (s : State) (core place slot ctx ty payload at_ : Nat) : State :=
  let r := s.recorder core
  if r.stopped then s
  else if Tab.getD r.latest place 0 = at_ + 1 then s.putRecorder core { r with lost := min 65535 (r.lost + 1) }
  else
    let t := (s.recordTimebases core at_).storeRecord core (recordWord (s.cycleAt core at_) ty ctx (if place < 4 then place else 0) slot payload)
    t.putRecorder core { t.recorder core with latest := Tab.put r.latest place (at_ + 1) }

/-- A record of an event of the present cycle. -/
def State.record (s : State) (core place slot ctx ty payload : Nat) : State := s.recordIn core place slot ctx ty payload s.now

/-- A record of an event that comes in a cycle of its own, after those that the same step has recorded there. -/
def State.recordLater (s : State) (core place slot ctx ty payload : Nat) : State :=
  s.recordIn core place slot ctx ty payload (max (s.now + 1) (Tab.getD (s.recorder core).latest place 0))

/-- A record of an event of a warp. -/
def State.recordWarp (s : State) (wid ty payload : Nat) : State :=
  match s.warp? wid with
  | some w => s.record w.core (w.quarterOf % 4) w.slot (s.ctxOf wid) ty payload
  | none => s

def State.recordWarpLater (s : State) (wid ty payload : Nat) : State :=
  match s.warp? wid with
  | some w => s.recordLater w.core (w.quarterOf % 4) w.slot (s.ctxOf wid) ty payload
  | none => s

/-- R342: whether the n-th sampled event is recorded under RSAMP. -/
def sampled (rsamp n : Nat) : Bool := rsamp != 15 && n % 2 ^ rsamp == 0

end Sys2Proof.Machine
end

