-- ==== Sys2Proof/Machine/Access.lean ====
section
/-! DEFINITION. How an access reaches its bytes: the windows and the scratchpad (R21 to R24), translation (R329, R330), leased
loads point by point (R235), stores and write-backs (R202, R236), die-exclusive leases (R240), releases and acquires (R245). -/

namespace Sys2Proof.Machine

open Sys2Proof

/-! ### Fault codes (R312) -/

namespace Code

def illegal : BitVec 16 := 0x0101
def badTarget : BitVec 16 := 0x0102
def xfetch : BitVec 16 := 0x0103
def callDepth : BitVec 16 := 0x0201
def retEmpty : BitVec 16 := 0x0202
def loopState : BitVec 16 := 0x0203
def tState : BitVec 16 := 0x0204
def xlMask : BitVec 16 := 0x0301
def xlExit : BitVec 16 := 0x0302
def xlSync : BitVec 16 := 0x0303
def modeState : BitVec 16 := 0x0401
def obState : BitVec 16 := 0x0402
def mmFormat : BitVec 16 := 0x0403
def mmBound : BitVec 16 := 0x0404
def patchLink : BitVec 16 := 0x0405
def addrForm : BitVec 16 := 0x0501
def misalign : BitVec 16 := 0x0502
def scratchRange : BitVec 16 := 0x0503
def pageFault : BitVec 16 := 0x0601
def protect : BitVec 16 := 0x0602
def overRead : BitVec 16 := 0x0701
def underRead : BitVec 16 := 0x0702
def crState : BitVec 16 := 0x0703
def engState : BitVec 16 := 0x0801
def objState : BitVec 16 := 0x0802
def lnchState : BitVec 16 := 0x0803
def privilege : BitVec 16 := 0x0901
def sysState : BitVec 16 := 0x0902
def dataErr : BitVec 16 := 0x0A01
def keyGone : BitVec 16 := 0x0A02
def watch : BitVec 16 := 0x0B01
def break_ : BitVec 16 := 0x0B02
def race : BitVec 16 := 0x0B03
def userTrap : BitVec 16 := 0x0C01
def preempt : BitVec 16 := 0x0D01
def resume : BitVec 16 := 0x0D02

end Code

/-- R312: the rank of a cause; a sole cause ranks first. -/
def rank (c : BitVec 16) : Nat :=
  match c.toNat with
  | 0x0101 => 1 | 0x0103 => 2 | 0x0102 => 3 | 0x0901 => 4
  | 0x0501 => 6 | 0x0502 => 7 | 0x0503 => 8 | 0x0601 => 9 | 0x0602 => 9
  | 0x0B01 => 10 | 0x0703 => 11 | 0x0701 => 12 | 0x0B03 => 13 | 0x0A01 => 14 | 0x0A02 => 14
  | 0x0702 => 1 | 0x0B02 => 1 | 0x0C01 => 1
  | _ => 5

/-! ### Windows (R21, R22) -/

def scratchBase : Nat := 0xFFFFFFF0000000

/-- Where an access goes: a byte of a scratchpad (core × 2^19 + offset) or a global physical address. -/
structure Target where
  scratch : Bool
  addr : Nat
  deriving DecidableEq, Repr

def Target.line (t : Target) : Nat := t.addr / 128
def Target.off (t : Target) : Nat := t.addr % 128

/-- R22: the scratchpad byte that an address of the scratchpad window names for a block; none outside what it may reach. -/
def State.scratchAt (s : State) (blk va : Nat) : Option Nat :=
  match s.block? blk with
  | none => none
  | some b =>
    let off := va - scratchBase
    if 0xFF80000 ≤ off then
      let x := off - 0xFF80000
      if x < b.lines * 128 then some (b.core * 2 ^ 19 + b.firstLine * 128 + x) else none
    else if off < 0x3000000 then
      let core := clusterOf b.core * 96 + off / 2 ^ 19
      let line := off % 2 ^ 19 / 128
      let ctx := (s.launch? b.launch).map (·.ctx)
      if s.blocks.any fun (_, c) => c.core == core && !c.departed && !c.saved && decide (c.firstLine ≤ line) && decide (line < c.firstLine + c.lines) &&
          (s.launch? c.launch).map (·.ctx) == ctx then
        some (core * 2 ^ 19 + off % 2 ^ 19)
      else none
    else none

def ScratchLine.fresh : ScratchLine := ⟨0, true, .uncounted, false⟩

/-- A scratchpad line, by core × 4096 + line; a line not listed is present, uncounted and zero (R203). -/
def State.scratchLine (s : State) (l : Nat) : ScratchLine := Tab.getD s.mem.scratch l ScratchLine.fresh

def State.putScratch (s : State) (l : Nat) (x : ScratchLine) : State :=
  { s with mem := { s.mem with scratch := Tab.set ScratchLine.fresh s.mem.scratch l x } }

/-! ### Translation (R329, R330, R378) -/

inductive Walk where
  | leaf (entry : BitVec 64) (bits : Nat)
  | fault (code : BitVec 16)
  deriving DecidableEq, Repr

/-- R329: one walk. -/
def State.walkFrom (s : State) (va : Nat) : Nat → List (Nat × Nat) → Walk
  | _, [] => .fault Code.protect
  | table, (lo, w) :: rest =>
    let e := s.mem.read (s.localise (table + 8 * (va / 2 ^ lo % 2 ^ w))) 8
    let addr := e / 256 % 2 ^ 48 * 256
    if e % 2 = 0 then .fault Code.pageFault
    else if e / 2 ^ 56 ≠ 0 ∨ e.testBit 5 then .fault Code.protect
    else if e.testBit 1 then
      if lo = 42 ∨ addr % 2 ^ lo ≠ 0 ∨ !s.backed (s.localise addr) ∨ e.testBit 6 ≠ isHost addr then .fault Code.protect
      else .leaf (BitVec.ofNat 64 e) lo
    else s.walkFrom va addr rest

/-- The lines of the entries that a walk reads. -/
def State.walkLines (s : State) (va : Nat) : Nat → List (Nat × Nat) → List Nat
  | _, [] => []
  | table, (lo, w) :: rest =>
    let a := s.localise (table + 8 * (va / 2 ^ lo % 2 ^ w))
    let e := s.mem.read a 8
    a / 128 :: (if e % 2 = 1 ∧ !e.testBit 1 then s.walkLines va (e / 256 % 2 ^ 48 * 256) rest else [])

/-- R388: a page walker's reads go to the channels in class 0 where the home does not hold their lines. That the walk answers at once is a
matter of timing (log entry 2). -/
def State.askWalk (s : State) (ctx va table : Nat) : State :=
  (s.walkLines va table tableLevels).foldl (fun t l => if t.lineHeld l then t else t.askDramAs l ctx 0 0) s

inductive Xlat where
  | ok (pa : Nat)
  | fault (code : BitVec 16)
  /-- a replayable fault -/
  | replay
  /-- R394: writes to the page wait -/
  | blocked
  deriving DecidableEq, Repr

/-- R25: a code page of a running launch of the context: a page that the context may execute, or of which the launch has run code (log
entry 28). -/
def State.holdsCode (s : State) (ctx bits va : Nat) (e : BitVec 64) : Bool :=
  s.launches.any fun (_, l) => l.ctx == ctx && l.status == .running &&
    (e.getLsbD 4 || l.pages.any fun p => p * 65536 / 2 ^ bits == va / 2 ^ bits)

/-- R25, R329: what the bits of a leaf allow; `code` for a page that holds code of a running launch. -/
def accessAllowed (k : Access) (e : BitVec 64) (code : Bool) : Bool :=
  match k with
  | .read => e.getLsbD 2
  | .write => e.getLsbD 3 && !code
  | .fetch => e.getLsbD 4

/-- What a leaf entry gives for an access of a kind: R25 for a fetch, R394 for WBLK. -/
def leafGives (s : State) (ctx : Nat) (e : BitVec 64) (bits va : Nat) (k : Access) : Xlat :=
  if !accessAllowed k e (s.holdsCode ctx bits va e) then .fault (if k = .fetch then Code.xfetch else Code.protect)
  else if k = .write ∧ e.getLsbD 7 then .blocked
  else .ok (s.localise (e.toNat / 256 % 2 ^ 48 * 256 / 2 ^ bits * 2 ^ bits + va % 2 ^ bits))

def State.tlbHit (s : State) (core ctx va : Nat) : Option TlbEntry :=
  s.mem.tlb.find? fun e => e.core == core && e.ctx == ctx && e.page == va / 2 ^ e.bits

/-- R330: the number under which a cluster's L2 TLB keeps its entries. -/
def clusterTlb (core : Nat) : Nat := 2000 + clusterOf core

/-- R330: a TLB of a core holds 64 entries, that of a cluster 4,096; the oldest goes (log entry 108). -/
def TlbEntry.insert (e : TlbEntry) (l : List TlbEntry) : List TlbEntry :=
  e :: ((l.filter (·.core == e.core)).take (if e.core < 2000 then 63 else 4095) ++ l.filter (·.core != e.core))

def State.keepEntry (s : State) (e : TlbEntry) : State := { s with mem := { s.mem with tlb := e.insert s.mem.tlb } }

/-- R23, R329, R330: the translation of a global address for a core, by its TLB, that of its cluster, or a walk, kept in both. -/
def State.translate (s : State) (core ctx va : Nat) (k : Access) : Xlat × State :=
  if va < 65536 then (.fault Code.pageFault, s)
  else match s.tlbHit core ctx va, s.tlbHit (clusterTlb core) ctx va with
    | some e, _ => (leafGives s ctx e.leaf e.bits va k, s)
    | none, some e => (leafGives s ctx e.leaf e.bits va k, s.keepEntry { e with core := core })
    | none, none =>
      match s.ctx? ctx with
      | none => (.fault Code.pageFault, s)
      | some c =>
        let t := s.askWalk ctx va c.ptbase.toNat
        match s.walkFrom va c.ptbase.toNat tableLevels with
        | .leaf e bits =>
          let x : TlbEntry := ⟨core, ctx, va / 2 ^ bits, bits, e⟩
          (leafGives s ctx e bits va k, (t.keepEntry { x with core := clusterTlb core }).keepEntry x)
        | .fault code => (if code = Code.pageFault ∧ c.replay then .replay else .fault code, t)

/-- The address a hardware access of a context reaches, through core 0's view of its tables. -/
def State.ctxAddress (s : State) (ctx va : Nat) (k : Access) : Xlat := (s.translate 0 ctx va k).1

/-! ### Stores and write-backs (R202, R236, R240) -/

/-- R236: bytes stored into the copy at a point, allocated without a fetch. R236 gives the rts of an allocated copy no value: it is the
storing warp's pts (DESIGN CHOICE, log entry 111). -/
def State.storeAt (s : State) (point line ctx : Nat) (pts : LTime) (data : Line) (mask : LineMask) : State :=
  match s.copy? point line with
  | some c =>
    let since := if c.dirty = 0 then s.now else c.dirtySince
    s.putCopy point line
      { c with data := mergeLine c.data data mask, held := c.held ||| mask, dirty := c.dirty ||| mask, wts := maxs c.wts pts,
               dirtySince := since, key := ctx }
  | none => ((s.makeRoom point line).getD s).putCopy point line ⟨mergeLine 0 data mask, mask, mask, pts, pts, s.now, ctx⟩

/-- Every line of which a point holds dirty bytes. -/
def State.dirtyLines (s : State) (point : Nat) : List Nat :=
  (s.mem.copies.filter fun (k, c) => k / 2 ^ 49 == point && c.dirty != 0).map fun (k, _) => k % 2 ^ 49

/-- R3: the first point of a core has room for dirty bytes of these lines. -/
def State.canStore (s : State) (core : Nat) (lines : List Nat) : Bool :=
  let p := s.corePoint core
  decide (((s.dirtyLines p).filter fun l => !lines.contains l).length + lines.length ≤ pointLines p)

/-- R3, R240: a slice whose set is full of lines under die-exclusive leases gives one up. -/
def State.giveUpLease (s : State) (point line : Nat) : State :=
  let l := (s.rivals point line).filter fun (k, _) => decide ((s.home k).dir = .diex (point - 3000))
  match l[Config.choices s.turn line % l.length]? with | some (k, _) => s.recall k | none => s

/-- R240: the directory grants a die-exclusive lease at once, with the home's data and times. The request carries the index of the die's
first core (log entry 109). -/
def State.grantDiex (s : State) (die line ctx : Nat) : Option State × State :=
  let p := l2Point die
  if (s.home line).dir = .diex die then (some s, s)
  else if isRemote (line * 128) || homeOf line == die then (none, s)
  else
    match (s.tellHome p line).openOwned line ctx (BitVec.allOnes 128) true (some die) false none (die * 384) fun h => dieOf h.core == die with
    | (false, t) => (none, t)
    | (true, t) =>
      match t.makeRoom p line with
      | none => (none, t.giveUpLease p line)
      | some u =>
        let h := u.home line
        let rts := match u.copy? p line with | some c => maxs h.rts c.rts | none => h.rts
        let c : Copy := ⟨u.homeView line (u.keyTag ctx), BitVec.allOnes 128, 0, h.wts, rts, u.now, ctx⟩
        (some (((u.putHome line { h with dir := .diex die }).putCopy p line c).hearHome p line), u)

/-- R236, R245: the dirty bytes of a line move outward from a point. `home`: they go to the home; otherwise they stop at the L2
slice of the die. None while a home must first be made ready. A slice without the die-exclusive lease passes them on, and its own leased
copy then holds them, with the times that they took (DESIGN CHOICE, log entry 112). Copies of a remote line go (R28). -/
def State.writeBack (s : State) (point line : Nat) (rel : Option Nat) (home : Bool) : Option State × State :=
  match s.copy? point line with
  | none => (some s, s)
  | some c =>
    if c.dirty = 0 then (some s, s)
    else if isRemote (line * 128) then
      (some (((s.postRemote line rel none (some point) c).dropCopy point line).dropCopy (l2Point (pointDie point)) line), s)
    else
      let die := pointDie point
      let h := s.home line
      let viaL2 : Bool := decide (point < 3000) && homeOf line != die
      if viaL2 && decide (h.dir = .diex die) then
        match s.copy? (l2Point die) line with
        | some q =>
          let l1 := pointClock point line
          let l2 := pointClock (l2Point die) line
          let t := maxs (s.writeBackPts c.wts rel) (q.rts + 1)
          let since := if q.dirty = 0 then s.now else q.dirtySince
          let s1 := (s.tellClock l1 l2).putCopy (l2Point die) line { q with
            data := mergeLine q.data c.data c.dirty, dirty := q.dirty ||| c.dirty, wts := t, rts := t, dirtySince := since, key := c.key }
          (some ((((s1.cleanCopy point line c t).noteMoved point rel c.key t).bump l2 t).tellClock l2 l1), s)
        | none => (some s, s)
      else if decide (3000 ≤ point) && decide (h.dir = .diex die) then
        -- R240: the bytes go through to the home, which first covers the leases that the slice granted; the lease is kept
        let s1 := (s.tellHome point line).putHome line { h with rts := maxs h.rts c.rts }
        let (t, s2) := s1.writeBackHome line c rel
        (some (((s2.putCopy point line { c with dirty := 0, wts := t, rts := t }).noteMoved point rel c.key t).hearHome point line), s)
      else
        let index := if point < 2000 then point else if point < 3000 then (point - 2000) * 96 else die * 384
        let mine : HomeReq → Bool := fun h => s.corePoint h.core == point || decide (3000 ≤ point) && dieOf h.core == die
        match s.openOwned line c.key c.dirty false (some die) home none index mine with
        | (false, s1) => (none, s1)
        | (true, s1) =>
          let (t, s2) := (s1.tellHome point line).writeBackHome line c rel
          let s3 := match viaL2, s2.copy? (l2Point die) line with
            | true, some q => s2.putCopy (l2Point die) line { q with
                data := mergeLine q.data c.data c.dirty, held := c.dirty, wts := t, rts := t }
            | _, _ => s2
          (some (((s3.cleanCopy point line c t).noteMoved point rel c.key t).hearHome point line), s1)

/-- R3, R202: the first point of a core that has no room for dirty bytes of some lines sends those of another outward. -/
def State.evictDirty (s : State) (core : Nat) (lines : List Nat) : State :=
  let p := s.corePoint core
  let l := (s.dirtyLines p).filter fun k => !lines.contains k
  match s.canStore core lines, l[Config.choices s.turn core % l.length]? with
  | false, some k => match s.writeBack p k none true with | (some t, _) => t | (none, t) => t
  | _, _ => s

/-- R202, R236: the write-back of a line from a core's points to its home. -/
def State.flushLine (s : State) (core line : Nat) : Option State × State :=
  match s.writeBack (s.corePoint core) line none true with
  | (some t, _) => t.writeBack (l2Point (dieOf core)) line none true
  | r => r

/-! ### Loads (R208, R235) -/

/-- R208: within the staleness window W behind the warp's pts. -/
def inWindow (wts pts : LTime) (w : Nat) : Bool := !precedes (wts + BitVec.ofNat 24 w) pts

/-- R288 STALE. -/
def State.staleWindow (s : State) (wid : Nat) : Nat := s.recField wid 463 448

/-- R235: whether a copy serves a load of some bytes at pts. -/
def copyServes (c : Copy) (kind : LoadKind) (mask : LineMask) (pts : LTime) (w : Nat) : Bool :=
  c.holds mask && match kind with
    | .leased => !precedes c.rts pts
    | .stale | .readOnly => inWindow c.wts pts w || !precedes c.rts pts
    | .fresh => false

/-- R235: a point takes the bytes of a line that it is given, with the times granted; its own dirty bytes stay on top. A point that has
no room takes none (R3). -/
def State.fill (s : State) (point line ctx : Nat) (data : Line) (held : LineMask) (wts rts : LTime) : State :=
  match s.copy? point line with
  | some c =>
    let t := if c.dirty = 0 then wts else maxs c.wts wts
    s.putCopy point line { c with data := mergeLine data c.data c.dirty, held := held ||| c.dirty, wts := t, rts := rts }
  | none => match s.makeRoom point line with
    | some t => t.putCopy point line ⟨data, held, 0, wts, rts, s.now, ctx⟩
    | none => s

/-- The value a load of a core sees of a line served from outward: the dirty bytes of its own points stand on top (R28). -/
def State.overlay (s : State) (core line : Nat) (d : Line) : Line :=
  match s.copy? (s.corePoint core) line with
  | some c => mergeLine d c.data c.dirty
  | none => d

def State.modReq (s : State) (r : Nat) (f : LineReq → LineReq) : State :=
  { s with mem := { s.mem with reqs := Tab.modify s.mem.reqs r f } }

/-- A warp observes a value written at wts (R233); at the home its pts takes it too. -/
def State.observe (s : State) (wid : Nat) (wts : LTime) (home : Bool) : State :=
  s.modWarp wid fun w => { w with ots := maxs w.ots wts, pts := if home then maxs w.pts wts else w.pts }

/-- The answer to a load request at one point: served with its data and wts, or passed on. -/
inductive Served where
  | served (data : Line) (wts : LTime)
  | next (stage : Stage) (held : Option LTime)
  | waits
  deriving DecidableEq, Repr

/-- R235, R240: a request at the first point of the core. -/
def State.loadAtL1 (s : State) (q : LineReq) : Served × State :=
  let pts := s.pts q.wid
  let p := s.corePoint q.core
  let s1 := s.bump (pointClock p q.line) pts
  match q.kind with
  | .fresh =>
    match s1.flushLine q.core q.line with
    | (some t, _) => (.next .l2 none, t)
    | (none, t) => (.waits, t)
  | _ =>
    match s1.copy? p q.line with
    | some c => if copyServes c q.kind q.mask pts (s.staleWindow q.wid) then (.served c.data c.wts, s1.observe q.wid c.wts false)
                else (.next .l2 (if c.holds q.mask then some c.wts else none), s1)
    | none => (.next .l2 none, s1)

/-- R235, R240: a request at the L2 slice of the issuing die; with the die-exclusive lease the slice stands in for the home. -/
def State.loadAtL2 (s : State) (q : LineReq) : Served × State :=
  let pts := s.pts q.wid
  let die := dieOf q.core
  let p := l2Point die
  let l1 := pointClock (s.corePoint q.core) q.line
  let s1 := (s.tellClock l1 (pointClock p q.line)).bump (pointClock p q.line) pts
  if homeOf q.line = die && !isRemote (q.line * 128) then (.next .home q.held, s1)
  else match s1.copy? p q.line with
    | some c =>
      if (s1.home q.line).dir = .diex die then
        let len := s1.leaseLength q.ctx q.line (s1.home q.line).cls (q.kind == .readOnly)
        let c' := { c with rts := maxs (maxs c.rts (c.wts + len)) (pts + len) }
        let s2 := ((s1.putCopy p q.line c').observe q.wid c.wts true).fill (s.corePoint q.core) q.line q.ctx c.data c.held c.wts c'.rts
        (.served (s2.overlay q.core q.line c.data) c.wts, s2.tellClock (pointClock p q.line) l1)
      else if copyServes c q.kind q.mask pts (s.staleWindow q.wid) then
        let s2 := (s1.observe q.wid c.wts false).fill (s.corePoint q.core) q.line q.ctx c.data c.held c.wts c.rts
        (.served (s2.overlay q.core q.line c.data) c.wts, s2.tellClock (pointClock p q.line) l1)
      else (.next (if isRemote (q.line * 128) then .remote else .home) (some c.wts), s1)
    | none => (.next (if isRemote (q.line * 128) then .remote else .home) q.held, s1)

/-- R235: a request at the home. A line that meets an uncorrectable error waits for DATAERR (R331). -/
def State.loadAtHome (s : State) (q : LineReq) : Served × State :=
  let h := s.home q.line
  if h.poisoned ∨ h.bad then (.waits, s)
  else
    let (ok, s1) := s.openHome q.line q.ctx q.mask false false (some (dieOf q.core)) false none
    if !ok then (.waits, s1)
    else
      let (wts, rts, s2) := (s1.carryOut q.core q.line).homeLoad q.line q.ctx (s.pts q.wid) (q.kind == .readOnly) q.held true
      let data := s2.homeView q.line (s2.keyTag q.ctx)
      let s3 := s2.observe q.wid wts true
      let s4 := if homeOf q.line = dieOf q.core then s3 else s3.fill (l2Point (dieOf q.core)) q.line q.ctx data (s3.homeBytes q.line) wts rts
      let s5 := (s4.fill (s.corePoint q.core) q.line q.ctx data (s3.homeBytes q.line) wts rts).carryBack q.core q.line
      (.served (s5.overlay q.core q.line data) wts, s5)

/-- R28, R401: a request for a remote line leaves over Causk, once the writes of the line that went before it are acknowledged; its reply
serves it. -/
def State.loadRemote (s : State) (r : Nat) (q : LineReq) : Served × State :=
  if s.remoteBusy q.line && q.keep.isNone then (.waits, s)
  else
    let pts := match q.keep with | some (_, ts) => ts | none => s.pts q.wid
    let msg := LinkMsg.loadRequest r s.sys.causkid.toNat q.ctx q.line q.held (q.kind == .readOnly) pts (s.gateClock q.line)
    (.next .sent q.held, s.send (remotePkg q.line) msg)

/-- R235: a request at the point it has reached. -/
def State.loadStep (s : State) (r : Nat) (q : LineReq) : Served × State :=
  match q.stage with
  | .l1 => s.loadAtL1 q
  | .l2 => s.loadAtL2 q
  | .home => s.loadAtHome q
  | .remote => s.loadRemote r q
  | .sent => (.waits, s)
  | .served => (.served q.data 0, s)
  | .failed _ => (.waits, s)

/-- Nothing more is to come of the request. -/
def Stage.over : Stage → Bool
  | .served | .failed _ => true
  | _ => false

/-- R28: an older request of the same core for the same line goes first, and so does an older atomic of the warp. Those of engines stand
apart. -/
def State.olderRequest (s : State) (r : Nat) (q : LineReq) : Bool :=
  q.keep.isNone &&
  ((s.mem.reqs.any fun (k, x) => decide (k < r) && x.keep.isNone && x.core == q.core && x.line == q.line && !x.stage.over) ||
   s.mem.homeReqs.any fun (k, x) => decide (k < r) && x.line == q.line && x.lanes.any fun l => l.wid == q.wid)

/-- R235: LEASED_LOAD_REQUEST: one request is served at its point or passed on. -/
def State.moveRequest (s : State) (r : Nat) : State :=
  match Tab.get? s.mem.reqs r with
  | none => s
  | some q =>
    if q.stage.over ∨ s.olderRequest r q then s
    else match s.loadStep r q with
      | (.served d _, t) => t.modReq r fun x => { x with stage := .served, data := d }
      | (.next st held, t) => t.modReq r fun x => { x with stage := st, held := held }
      | (.waits, t) => t

/-- A request that the hardware makes for a remote line fills the points on the way when its reply comes. -/
def State.orderRemote (s : State) (q : LineReq) : State :=
  if (s.mem.reqs.any fun (_, x) => x.keep.isNone && x.core == q.core && x.line == q.line && decide (x.stage ≠ .served)) = true then s
  else { s with mem := { s.mem with reqs := Tab.put s.mem.reqs s.fresh { q with op := s.fresh } }, fresh := s.fresh + 1 }

/-- A plain load made inside a step (a descriptor, a record, a mask): the points in turn, within the fuel given. -/
def State.loadNow (s : State) (q : LineReq) : Nat → Option Line × State
  | 0 => (none, s)
  | n + 1 =>
    if q.stage = .remote then (none, s.orderRemote q)
    else match s.loadStep 0 q with
    | (.served d _, t) => (some d, t)
    | (.next st held, t) => t.loadNow { q with stage := st, held := held } n
    | (.waits, t) => (none, t)

def LineReq.plain (wid core ctx line : Nat) (mask : LineMask) : LineReq :=
  ⟨0, line, 0, .leased, ctx, wid, core, false, mask, .l1, none, 0, false, 0, none⟩

/-- R28: an earlier load or atomic of the warp to a line is on its way; a later access of the warp to the line comes after it. -/
def State.lineAwaits (s : State) (wid line : Nat) : Bool :=
  (s.mem.reqs.any fun (_, x) => x.wid == wid && x.line == line && !x.stage.over && (Tab.get? s.mem.ops x.op).isSome) ||
  s.mem.homeReqs.any fun (_, x) => x.line == line && x.lanes.any fun l => l.wid == wid

/-- R208: n bytes, within one line, read as a plain load of a warp. None while they cannot be delivered. -/
def State.plainRead (s : State) (wid : Nat) (t : Target) (n : Nat) : Option Nat × State :=
  if !t.scratch && s.lineAwaits wid t.line then (none, s)
  else if t.scratch then
    let l := s.scratchLine t.line
    (if l.present then some (lineRead l.data t.off n) else none, s)
  else
    let core := match s.warp? wid with | some w => w.core | none => 0
    match Tab.get? s.mem.counted t.line with
    | some c => (some (lineRead c.data t.off n), s)
    | none =>
      match s.loadNow (.plain wid core (s.ctxOf wid) t.line (byteMask t.off n)) 4 with
      | (some d, u) => (some (lineRead d t.off n), u)
      | (none, u) => (none, u)

/-- n bytes of any length from consecutive targets, line by line. -/
def State.plainReadLines (s : State) (wid : Nat) (t : Target) : Nat → Option Nat × State
  | 0 => (some 0, s)
  | k + 1 =>
    match s.plainRead wid ⟨t.scratch, t.line * 128⟩ 128 with
    | (none, u) => (none, u)
    | (some v, u) =>
      match u.plainReadLines wid ⟨t.scratch, t.addr + 128⟩ k with
      | (some r, u') => (some (v + 2 ^ 1024 * r), u')
      | (none, u') => (none, u')

/-! ### Releases and acquires (R244, R245) -/

/-- How far a scope reaches from a core: its own point, the die's L2 slice, or the home. -/
inductive Reach where
  | none | point | slice | home
  deriving DecidableEq, Repr

/-- R217: the cores of a scope group. -/
def State.groupCores (s : State) (ctx k : Nat) : BitVec 1536 := match s.ctx? ctx with | some c => Tab.getD c.groups k 0 | none => 0

/-- R217, R244: a scope group has a cluster point for the issuer. -/
def State.groupAtCluster (s : State) (ctx core k : Nat) : Bool :=
  let g := s.groupCores ctx k
  g.getLsbD core && g == (g &&& (BitVec.allOnes 96).zeroExtend 1536 <<< (clusterOf core * 96))

/-- R244: the point of coherence of a scope. -/
def State.reach (s : State) (ctx core scope : Nat) : Reach :=
  let cluster : Reach := if s.fused (clusterOf core) then .point else .slice
  match scope with
  | 0 => .none
  | 1 => .point
  | 2 => cluster
  | 3 => .home
  | 4 => .home
  | k => if s.groupAtCluster ctx core (k - 32) then cluster else .home

/-- The outstanding loads and returning atomics of a warp. -/
def Op.ofWarp (o : Op) (wid : Nat) : Bool := o.dests.any (·.wid == wid) || o.flags.any (·.1 == wid)

def State.opsOf (s : State) (wid : Nat) : List (Nat × Op) := s.mem.ops.filter fun (_, o) => o.ofWarp wid

/-- R245: every earlier load has returned and every earlier atomic has been performed. -/
def State.quiet (s : State) (wid : Nat) : Bool :=
  (s.opsOf wid).isEmpty && s.mem.homeReqs.all fun (_, h) => h.lanes.all fun l => l.wid != wid

/-- Write-backs of lines one after the other; stops where a home must first be made ready. -/
def State.writeBackAll (s : State) (point : Nat) (rel : Option Nat) (home : Bool) : List Nat → Option State × State
  | [] => (some s, s)
  | l :: ls =>
    match s.writeBack point l rel home with
    | (some t, _) => t.writeBackAll point rel home ls
    | (none, t) => (none, t)

/-- R240: write-backs from a core's point to the slice of its die, which first obtains the die-exclusive lease. -/
def State.writeBackSlice (s : State) (point ctx : Nat) (rel : Option Nat) : List Nat → Option State × State
  | [] => (some s, s)
  | l :: ls =>
    let die := pointDie point
    let (g, s1) := if homeOf l = die ∨ isRemote (l * 128) then (some s, s) else s.grantDiex die l ctx
    match g with
    | none => (none, s1)
    | some t =>
      match t.writeBack point l rel false with
      | (some u, _) => u.writeBackSlice point ctx rel ls
      | (none, u) => (none, u)

/-- R202, R245: every dirty line of a core's point, then of its die's L2, goes home; none while a home must first be made
ready. -/
def State.releaseHome (s : State) (core : Nat) (rel : Option Nat) : Option State × State :=
  let p := s.corePoint core
  match s.writeBackAll p rel true (s.dirtyLines p) with
  | (none, t) => (none, t)
  | (some t, _) => t.writeBackAll (l2Point (dieOf core)) rel true (t.dirtyLines (l2Point (dieOf core)))

/-- R245: one of some lines, in no stated order. -/
def State.anyLine (s : State) (l : List Nat) : Option Nat := l[Config.choices s.turn l.length % l.length]?

/-- R246: the times that bytes of some points have taken on their way outward reach a warp that releases. -/
def State.takeMoved (s : State) (wid : Nat) (points : List Nat) : State :=
  points.foldl (fun t p => match Tab.get? t.mem.moved p with | some x => t.raisePts (some wid) x | none => t) s

/-- R245: one attempt at a release of a warp at a scope: it writes one line back, in no stated order, and is complete when none is left. -/
def State.release (s : State) (wid scope : Nat) : Option State × State :=
  match s.warp? wid with
  | none => (some s, s)
  | some w =>
    if !s.quiet wid then (none, s)
    else
      let ctx := s.ctxOf wid
      let p := s.corePoint w.core
      let l2 := l2Point (dieOf w.core)
      match s.reach ctx w.core scope with
      | .none | .point => (some s, s)
      | .slice =>
        match s.anyLine (s.dirtyLines p) with
        | some l => (none, (s.writeBackSlice p ctx (some wid) [l]).2)
        | none => (some (s.takeMoved wid [p]), s)
      | .home =>
        match s.anyLine (s.dirtyLines p), s.anyLine (s.dirtyLines l2) with
        | some l, _ => (none, (s.writeBackAll p (some wid) true [l]).2)
        | none, some l => (none, (s.writeBackAll l2 (some wid) true [l]).2)
        | none, none => (some (s.takeMoved wid [p, l2]), s)

/-- R245: an acquire. -/
def Warp.acquire (w : Warp) : Warp := let p := maxs w.pts w.ots; { w with pts := p, ots := p }

def State.acquire (s : State) (wid : Nat) : State := s.modWarp wid Warp.acquire

/-- A warp observes a completion at a time, then acquires (R268). -/
def State.acquireAt (s : State) (wid : Nat) (t : LTime) : State := s.modWarp wid fun w => ({ w with ots := maxs w.ots t } : Warp).acquire

end Sys2Proof.Machine
end

