-- ==== Sys2Proof/Machine/Number.lean ====
section
/-! DEFINITION. Number formats and rounding (R38 to R58): exact values as signed dyadic numbers, and one rounding function.
The arithmetic of the floating-point, conversion and matrix instructions is built from these. -/

namespace Sys2Proof.Machine

open Sys2Proof

/-- R50: the rounding modes, by their RM code. -/
inductive Rounding where
  | rne | rz | rd | ru
  deriving DecidableEq, Repr

def Rounding.ofCode (c : Nat) : Rounding := match c with | 0 => .rne | 1 => .rz | 2 => .rd | _ => .ru

/-- A signed dyadic number: the value is ±man × 2^exp; zero keeps its sign. -/
structure Dyadic where
  neg : Bool
  man : Nat
  exp : Int
  deriving DecidableEq, Repr

/-- An exact result: a number, an infinity or NaN. -/
inductive Real where
  | nan
  | inf (neg : Bool)
  | num (x : Dyadic)
  deriving DecidableEq, Repr

/-- R40: a floating-point format. `special`: the all-ones exponent is infinity or NaN; `nanCode`: canonical NaN (R43, R53);
`maxCode`: code of the largest finite magnitude; `top`: exponent field values run to 2^ebits − 1. -/
structure Format where
  bits : Nat
  mbits : Nat
  bias : Nat
  special : Bool
  maxCode : Nat
  nanCode : Nat
  deriving DecidableEq, Repr

def fp32 : Format := ⟨32, 23, 127, true, 0x7F7FFFFF, 0x7FC00000⟩
def fp16 : Format := ⟨16, 10, 15, true, 0x7BFF, 0x7E00⟩
def bf16 : Format := ⟨16, 7, 127, true, 0x7F7F, 0x7FC0⟩
def e4m3 : Format := ⟨8, 3, 7, false, 0x7E, 0x7F⟩
def e5m2 : Format := ⟨8, 2, 15, true, 0x7B, 0x7E⟩
def e2m1 : Format := ⟨4, 1, 1, false, 0x7, 0x0⟩

/-- R68: the format of a floating-point type code. -/
def Format.ofType (ty : Nat) : Format :=
  match ty with | 5 => fp16 | 6 => bf16 | 11 => e4m3 | 12 => e5m2 | 13 => e2m1 | _ => fp32

/-- R40: exponent of the smallest normal. -/
def Format.emin (F : Format) : Int := 1 - F.bias

/-- R40: infinity of the format. -/
def Format.infCode (F : Format) : Nat := F.maxCode + 1

/-- The code with its sign. -/
def Format.signed (F : Format) (neg : Bool) (code : Nat) : Nat := if neg then code + 2 ^ (F.bits - 1) else code

/-- R40 to R42: the value of an encoding. -/
def Format.value (F : Format) (bits : Nat) : Real :=
  let code := bits % 2 ^ (F.bits - 1)
  let neg := decide (2 ^ (F.bits - 1) ≤ bits % 2 ^ F.bits)
  let e := code / 2 ^ F.mbits
  let m := code % 2 ^ F.mbits
  if F.special && decide (F.maxCode < code) then (if code = F.infCode then .inf neg else .nan)
  else if F.bits = 8 && decide (F.maxCode < code) then .nan
  else if e = 0 then .num ⟨neg, m, F.emin - F.mbits⟩
  else .num ⟨neg, m + 2 ^ F.mbits, (e : Int) - F.bias - F.mbits⟩

/-- R54: a subnormal encoding. -/
def Format.subnormal (F : Format) (bits : Nat) : Bool :=
  let code := bits % 2 ^ (F.bits - 1)
  decide (0 < code) && decide (code < 2 ^ F.mbits)

/-- R54: FTZ acts on FP32, FP16 and BF16 only. -/
def Format.flushes (F : Format) : Bool := decide (16 ≤ F.bits)

/-- R54: a subnormal read or returned as the zero of its sign. -/
def Format.flush (F : Format) (ftz : Bool) (bits : Nat) : Nat :=
  if ftz && F.flushes && F.subnormal bits then F.signed (decide (2 ^ (F.bits - 1) ≤ bits % 2 ^ F.bits)) 0 else bits

/-- R51. `inf`: the value was an infinity. -/
def overflowResult (F : Format) (neg : Bool) (mode : Rounding) (sat inf : Bool) : Nat :=
  if sat || !F.special then F.signed neg F.maxCode
  else if inf then F.signed neg F.infCode
  else match mode with
    | .rne => F.signed neg F.infCode
    | .rz => F.signed neg F.maxCode
    | .ru => F.signed neg (if neg then F.maxCode else F.infCode)
    | .rd => F.signed neg (if neg then F.infCode else F.maxCode)

/-- Rounding of q + r, where r is a fraction below one given as its comparison with a half and with zero. -/
def roundUp (mode : Rounding) (neg : Bool) (q : Nat) (overHalf half rest : Bool) : Bool :=
  match mode with
  | .rne => overHalf || (half && q % 2 == 1)
  | .rz => false
  | .ru => !neg && rest
  | .rd => neg && rest

/-- |x| in units of 2^qe, rounded to an integer. -/
def roundUnits (mode : Rounding) (x : Dyadic) (qe : Int) : Nat :=
  if qe ≤ x.exp then x.man * 2 ^ (x.exp - qe).toNat
  else
    let sh := (qe - x.exp).toNat
    if Nat.log2 x.man + 2 < sh then (if roundUp mode x.neg 0 false false (x.man != 0) then 1 else 0)
    else
      let q := x.man / 2 ^ sh
      let r := x.man % 2 ^ sh
      if roundUp mode x.neg q (decide (2 ^ sh < 2 * r)) (2 * r == 2 ^ sh) (r != 0) then q + 1 else q

/-- floor(log2 |x|) of a nonzero number. -/
def Dyadic.log2 (x : Dyadic) : Int := Nat.log2 x.man + x.exp

/-- R50: the one rounding function. `sat` selects the SAT overflow rule. -/
def roundTo (F : Format) (mode : Rounding) (sat : Bool) (v : Real) : Nat :=
  match v with
  | .nan => F.nanCode
  | .inf neg => overflowResult F neg mode sat true
  | .num x =>
    if x.man = 0 then F.signed x.neg 0
    else if (F.bias : Int) + 2 < x.log2 then overflowResult F x.neg mode sat false
    else
      let k := max x.log2 F.emin
      let n := roundUnits mode x (k - F.mbits)
      let code := if n < 2 ^ F.mbits then n else n - 2 ^ F.mbits + (k - F.emin + 1).toNat * 2 ^ F.mbits
      if F.maxCode < code then overflowResult F x.neg mode sat false else F.signed x.neg code

/-- R54: rounding, then the flush of a subnormal result. -/
def roundFlush (F : Format) (mode : Rounding) (sat ftz : Bool) (v : Real) : Nat := F.flush ftz (roundTo F mode sat v)

/-! ### Exact arithmetic -/

def Dyadic.add (x y : Dyadic) : Dyadic :=
  let e := min x.exp y.exp
  let a : Int := (if x.neg then -1 else 1) * (x.man * 2 ^ (x.exp - e).toNat : Nat)
  let b : Int := (if y.neg then -1 else 1) * (y.man * 2 ^ (y.exp - e).toNat : Nat)
  let c := a + b
  ⟨decide (c < 0), c.natAbs, e⟩

def Dyadic.mul (x y : Dyadic) : Dyadic := ⟨x.neg != y.neg, x.man * y.man, x.exp + y.exp⟩

/-- R114: sign of a product, and 0 × ∞. -/
def Real.mul (a b : Real) : Real :=
  match a, b with
  | .nan, _ => .nan
  | _, .nan => .nan
  | .inf s, .inf t => .inf (s != t)
  | .inf s, .num x => if x.man = 0 then .nan else .inf (s != x.neg)
  | .num x, .inf s => if x.man = 0 then .nan else .inf (s != x.neg)
  | .num x, .num y => .num (x.mul y)

def Real.neg (a : Real) : Real :=
  match a with
  | .nan => .nan
  | .inf s => .inf !s
  | .num x => .num { x with neg := !x.neg }

/-- R114, R156: the exact sum of any number of operands; the sign of a zero sum depends on the mode. -/
def Real.sum (mode : Rounding) (l : List Real) : Real :=
  if l.contains .nan || (l.contains (.inf true) && l.contains (.inf false)) then .nan
  else if l.contains (.inf true) then .inf true
  else if l.contains (.inf false) then .inf false
  else
    let nums := l.filterMap fun | .num x => some x | _ => none
    let t := nums.foldl Dyadic.add ⟨false, 0, 0⟩
    if t.man = 0 then
      let allZero := nums.all fun x => x.man == 0
      if allZero && nums.all (·.neg) && !nums.isEmpty then .num ⟨true, 0, 0⟩
      else if allZero && nums.all (!·.neg) then .num ⟨false, 0, 0⟩
      else .num ⟨decide (mode = .rd), 0, 0⟩
    else .num t

/-- An integer as an exact value. -/
def Real.ofInt (x : Int) : Real := .num ⟨decide (x < 0), x.natAbs, 0⟩

/-- The order of two numbers: −1, 0 or 1; zeros of either sign are equal. Infinities stand at the ends. -/
def Real.compare (a b : Real) : Option Int :=
  match a, b with
  | .nan, _ => none
  | _, .nan => none
  | .inf s, .inf t => some (if s = t then 0 else if s then -1 else 1)
  | .inf s, .num _ => some (if s then -1 else 1)
  | .num _, .inf s => some (if s then 1 else -1)
  | .num x, .num y =>
    let d := x.add { y with neg := !y.neg }
    some (if d.man = 0 then 0 else if d.neg then -1 else 1)

/-! ### The arithmetic of R115 to R123 on encodings -/

/-- Operand value under FTZ. -/
def Format.read (F : Format) (ftz : Bool) (bits : Nat) : Real := F.value (F.flush ftz bits)

/-- The modifiers of an arithmetic instruction. -/
structure Modes where
  rm : Rounding := .rne
  sat : Bool := false
  ftz : Bool := false
  deriving DecidableEq, Repr

def x3Modes (f : X3) : Modes := ⟨Rounding.ofCode f.rm.toNat, f.ovf == 1, f.ftz == 1⟩

def fAdd (F : Format) (m : Modes) (a b : Nat) : Nat :=
  roundFlush F m.rm m.sat m.ftz (Real.sum m.rm [F.read m.ftz a, F.read m.ftz b])

def fSub (F : Format) (m : Modes) (a b : Nat) : Nat :=
  roundFlush F m.rm m.sat m.ftz (Real.sum m.rm [F.read m.ftz a, (F.read m.ftz b).neg])

def fMul (F : Format) (m : Modes) (a b : Nat) : Nat :=
  roundFlush F m.rm m.sat m.ftz ((F.read m.ftz a).mul (F.read m.ftz b))

/-- R115: 0 × ∞ is NaN whatever the addend. -/
def fFma (F : Format) (m : Modes) (a b c : Nat) : Nat :=
  roundFlush F m.rm m.sat m.ftz (Real.sum m.rm [(F.read m.ftz a).mul (F.read m.ftz b), F.read m.ftz c])

/-- R123. -/
def dot2 (E : Format) (m : Modes) (a b c : Nat) : Nat :=
  let p (x y : Nat) := (E.read m.ftz x).mul (E.read m.ftz y)
  roundFlush fp32 m.rm m.sat m.ftz
    (Real.sum m.rm [p (a % 65536) (b % 65536), p (a / 65536) (b / 65536), fp32.read m.ftz c])

/-- R116: `great` selects FMAX. -/
def fSelect (F : Format) (great ftz : Bool) (a0 b0 : Nat) : Nat :=
  let a := F.flush ftz a0
  let b := F.flush ftz b0
  match F.value a, F.value b with
  | .nan, .nan => F.nanCode
  | .nan, _ => b
  | _, .nan => a
  | x, y =>
    let c := (x.compare y).getD 0
    let aNeg := decide (2 ^ (F.bits - 1) ≤ a % 2 ^ F.bits)
    if great then (if 0 < c || (c == 0 && !aNeg) then a else b) else (if c < 0 || (c == 0 && aNeg) then a else b)

/-- R117: −1, 0, 1, or none when unordered. -/
def fCompare (ftz : Bool) (a b : Nat) : Option Int := (fp32.read ftz a).compare (fp32.read ftz b)

/-- R57: rounds to an integer. -/
def Dyadic.round (mode : Rounding) (x : Dyadic) : Int :=
  let n := roundUnits mode x 0
  if x.neg then -(n : Int) else n

/-- Clamps to a range. -/
def clampInt (x lo hi : Int) : Int := max lo (min x hi)

/-- R38: the range of an integer type code. -/
def intRange (ty : Nat) : Int × Int :=
  match ty with
  | 0 => (-2 ^ 31, 2 ^ 31 - 1)
  | 1 => (0, 2 ^ 32 - 1)
  | 3 => (-2 ^ 63, 2 ^ 63 - 1)
  | 4 => (0, 2 ^ 64 - 1)
  | 7 => (-2 ^ 15, 2 ^ 15 - 1)
  | 8 => (0, 2 ^ 16 - 1)
  | 9 => (-2 ^ 7, 2 ^ 7 - 1)
  | _ => (0, 2 ^ 8 - 1)

/-- R38: width of an integer type code. -/
def intWidth (ty : Nat) : Nat := match ty with | 0 => 32 | 1 => 32 | 3 => 64 | 4 => 64 | 7 => 16 | 8 => 16 | _ => 8

/-- R38: signed type codes. -/
def intSigned (ty : Nat) : Bool := ty == 0 || ty == 3 || ty == 7 || ty == 9

/-- R38: the integer that the low bits of a value stand for. -/
def intRead (ty : Nat) (v : Nat) : Int :=
  let n := v % 2 ^ intWidth ty
  if intSigned ty && decide (2 ^ (intWidth ty - 1) ≤ n) then (n : Int) - 2 ^ intWidth ty else n

/-- R57: conversion to an integer type. A value far outside every range is clamped before it is formed. -/
def realToInt (mode : Rounding) (ty : Nat) (v : Real) : Int :=
  let (lo, hi) := intRange ty
  match v with
  | .nan => 0
  | .inf neg => if neg then lo else hi
  | .num x => if x.man ≠ 0 ∧ 200 < x.log2 then (if x.neg then lo else hi) else clampInt (x.round mode) lo hi

/-- R118: rounding to an integral value, with the sign of the operand. -/
def fRound (mode : Rounding) (ftz : Bool) (a0 : Nat) : Nat :=
  let a := fp32.flush ftz a0
  match fp32.value a with
  | .nan => fp32.nanCode
  | .inf _ => a
  | .num x => if x.man = 0 ∨ 23 ≤ x.log2 then a else roundTo fp32 mode false (.num ⟨x.neg, roundUnits mode x 0, 0⟩)

/-- R119. -/
def fClass (F : Format) (bits : Nat) : Nat :=
  let neg := decide (2 ^ (F.bits - 1) ≤ bits % 2 ^ F.bits)
  match F.value bits with
  | .nan => 256
  | .inf s => if s then 1 else 128
  | .num x =>
    if x.man = 0 then (if neg then 8 else 16)
    else if F.subnormal bits then (if neg then 4 else 32)
    else if neg then 2 else 64

/-- R120: a × 2^n. -/
def fScale (m : Modes) (a : Nat) (n : Int) : Nat :=
  let v := match fp32.read m.ftz a with | .num x => .num { x with exp := x.exp + n } | r => r
  roundFlush fp32 m.rm m.sat m.ftz v

/-- R120: FEXPN. -/
def fExponent (ftz : Bool) (a : Nat) : Word :=
  match fp32.read ftz a with
  | .num x => if x.man = 0 then 0x80000000 else BitVec.ofInt 32 x.log2
  | _ => 0x7FFFFFFF

/-- R120: FMANT. -/
def fMantissa (ftz : Bool) (a0 : Nat) : Nat :=
  let a := fp32.flush ftz a0
  match fp32.value a with
  | .nan => fp32.nanCode
  | .inf _ => a
  | .num x => if x.man = 0 then a else roundTo fp32 .rne false (.num { x with exp := x.exp - x.log2 })

/-- R56, R124: the pairs of type codes that convert exactly, with no overflow rule: equal types, every narrower type into
FP32, and E2M1 or E4M3 into FP16 or BF16. -/
def exactPair (src dst : Nat) : Bool :=
  src == dst || dst == 2 || ((src == 11 || src == 13) && (dst == 5 || dst == 6))

/-- R124, R56: one element from one format to another. Type 15 is an E8M0 scale. An exact pair keeps infinity under .sat, and its
result is not flushed: R54 flushes the inputs and what the rounding returns, and never an E8M0 value. -/
def convert (src dst : Nat) (m : Modes) (bits : Nat) : Nat :=
  let D := Format.ofType dst
  let v := if src = 15 then (if bits % 256 = 255 then .nan else .num ⟨false, 1, (bits % 256 : Nat) - 127⟩)
    else (Format.ofType src).read m.ftz bits
  if exactPair src dst then
    match v with
    | .inf neg => if D.special then D.signed neg D.infCode else roundTo D m.rm m.sat v
    | _ => roundTo D m.rm m.sat v
  else roundFlush D m.rm m.sat m.ftz v

/-- R45: the exponent of an E8M0 scale; none for NaN. -/
def scaleExp (code : Nat) : Option Int := if code % 256 = 255 then none else some ((code % 256 : Nat) - 127)

/-- R47: the sign bit and the magnitude of weight j of a QB8 index with its table entry. -/
def qb8Weight (index entry j : Nat) : Bool × Nat :=
  let bit (i : Nat) := index.testBit i
  let s7 := (List.range 8).foldl (fun acc i => acc != bit i) false
  (if j < 7 then bit (j + 1) else s7, entry / 16 ^ j % 16)

/-- R47: weight j without its scale: magnitude q / 4. -/
def qb8Value (index entry j : Nat) : Dyadic := let (s, q) := qb8Weight index entry j; ⟨s, q, -2⟩

/-! ### Square root and the special functions (R127 to R130) -/

/-- The integer square root, from the highest of `fuel` bits down. -/
def isqrt (n : Nat) : Nat → Nat → Nat
  | 0, r => r
  | f + 1, r => let t := r + 2 ^ f; isqrt n f (if t * t ≤ n then t else r)

/-- The square root of a positive number, exact or with a sticky bit below the precision of FP32. -/
def Dyadic.sqrt (x : Dyadic) : Dyadic :=
  let y : Dyadic := if x.exp % 2 = 0 then x else ⟨x.neg, x.man * 2, x.exp - 1⟩
  let man := y.man * 2 ^ 64
  let r := isqrt man (Nat.log2 man / 2 + 1) 0
  ⟨false, 2 * r + (if r * r = man then 0 else 1), (y.exp - 64) / 2 - 1⟩

/-- The special functions, in opcode order. -/
inductive Special where
  | sin | cos | sincos | sinpi | cospi | exp2 | log2 | rcp | rsqrt | sqrt | tanh
  deriving DecidableEq, Repr

def Special.code : Special → Nat
  | .sin => 0 | .cos => 1 | .sincos => 2 | .sinpi => 3 | .cospi => 4 | .exp2 => 5 | .log2 => 6 | .rcp => 7
  | .rsqrt => 8 | .sqrt => 9 | .tanh => 10

def Special.ofCode (c : Nat) : Special :=
  match c with
  | 0 => .sin | 1 => .cos | 2 => .sincos | 3 => .sinpi | 4 => .cospi | 5 => .exp2 | 6 => .log2 | 7 => .rcp
  | 8 => .rsqrt | 9 => .sqrt | _ => .tanh

/-- An integer value, when the number is one. -/
def Dyadic.integer? (x : Dyadic) : Option Int :=
  let sign : Int := if x.neg then -1 else 1
  if 0 ≤ x.exp then some (sign * (x.man * 2 ^ x.exp.toNat : Nat))
  else if x.man % 2 ^ (-x.exp).toNat = 0 then some (sign * (x.man / 2 ^ (-x.exp).toNat : Nat))
  else none

/-- x ≤ n. -/
def Dyadic.atMost (x : Dyadic) (n : Int) : Bool := (Real.num x).compare (Real.ofInt n) != some 1

/-- A power of two: its exponent. -/
def Dyadic.pow2? (x : Dyadic) : Option Int := if x.man = 2 ^ Nat.log2 x.man then some x.log2 else none

/-- R129: the result where it is exact; none where only the bound of R128 holds. -/
def specialExact (fn : Special) (mode : Rounding) (a : Nat) : Option Nat :=
  let nan := some fp32.nanCode
  let one := 0x3F800000
  match fp32.value a with
  | .nan => nan
  | .inf neg =>
    match fn with
    | .sin | .cos | .sincos | .sinpi | .cospi => nan
    | .exp2 => some (if neg then 0 else fp32.infCode)
    | .log2 | .sqrt => if neg then nan else some fp32.infCode
    | .rcp => some (fp32.signed neg 0)
    | .rsqrt => if neg then nan else some 0
    | .tanh => some (fp32.signed neg one)
  | .num x =>
    let zero := x.man == 0
    match fn with
    | .sin | .sincos => if zero then some a else none
    | .cos => if zero then some one else none
    | .sinpi => if zero then some a else if x.integer?.isSome then some (fp32.signed x.neg 0) else none
    | .cospi =>
      match x.integer? with
      | some n => some (if n % 2 = 0 then one else fp32.signed true one)
      | none => if ({ x with exp := x.exp + 1 } : Dyadic).integer?.isSome then some 0 else none
    | .exp2 =>
      if zero then some one
      else if !x.neg && decide (7 ≤ x.log2) then some fp32.infCode
      else if x.neg && x.atMost (-150) then some 0
      else match x.integer? with
        | some n => some (roundTo fp32 .rne false (.num ⟨false, 1, n⟩))
        | none => none
    | .log2 =>
      if zero then some (fp32.signed true fp32.infCode) else if x.neg then nan
      else x.pow2?.map fun k => roundTo fp32 .rne false (Real.ofInt k)
    | .rcp =>
      if zero then some (fp32.signed x.neg fp32.infCode)
      else match x.pow2? with
        | some k => some (roundTo fp32 .rne false (.num ⟨x.neg, 1, -k⟩))
        | none => if x.log2 < -128 then some (fp32.signed x.neg fp32.infCode) else none
    | .rsqrt =>
      if zero then some (fp32.signed x.neg fp32.infCode) else if x.neg then nan
      else match x.pow2? with
        | some k => if k % 2 = 0 then some (roundTo fp32 .rne false (.num ⟨false, 1, -(k / 2)⟩)) else none
        | none => none
    | .sqrt => if zero then some a else if x.neg then nan else some (roundTo fp32 mode false (.num x.sqrt))
    | .tanh =>
      if zero then some a else if (Real.num { x with neg := false }).compare (Real.ofInt 10) ≠ some (-1) then some (fp32.signed x.neg one) else none

/-- The reciprocal of a nonzero number to 64 bits, with a sticky bit. -/
def Dyadic.inv (x : Dyadic) : Dyadic :=
  let l := Nat.log2 x.man
  let q := 2 ^ (l + 64) / x.man
  ⟨x.neg, 2 * q + (if 2 ^ (l + 64) % x.man = 0 then 0 else 1), -(x.exp + l + 64) - 1⟩

/-- R128: one unit in the last place of FP32 at a magnitude of that floor(log2). -/
def ulpExp (k : Int) : Int := max k (-126) - 23

/-- x ≤ y. -/
def Dyadic.le (x y : Dyadic) : Bool := (Real.num x).compare (Real.num y) != some 1

/-! ### Exact results of the transcendental functions (R128, R130)

Numbers in fixed point, in units of 2^-256. Arguments are below 2^128 in magnitude, so a reduction modulo π/2 loses at most 128 of
the bits after the point: the rounded π leaves no error that a result in FP32 could show (R130). -/

def fxBits : Nat := 256
def fxOne : Int := 2 ^ fxBits

/-- A number in fixed point; bits below 2^-256 are dropped. -/
def Dyadic.fixed (x : Dyadic) : Int :=
  let e := x.exp + fxBits
  let m : Nat := if 0 ≤ e then x.man * 2 ^ e.toNat else x.man / 2 ^ (-e).toNat
  if x.neg then -(m : Int) else m

def fxMul (a b : Int) : Int := a * b / fxOne

/-- The sum of a series by its term and the next term's factor over a divisor: from the i-th of `fuel` terms, term × factor / d i. -/
def series (factor : Int) (d : Nat → Int) : Nat → Nat → Int → Int
  | 0, _, _ => 0
  | f + 1, i, t => t + series factor d f (i + 1) (fxMul t factor / d i)

/-- The sum over i of q^i / (2 i + 1), where `t` is q^i. -/
def oddSeries (q : Int) : Nat → Nat → Int → Int
  | 0, _, _ => 0
  | f + 1, i, t => t / (2 * i + 1 : Nat) + oddSeries q f (i + 1) (fxMul t q)

/-- artanh u, or arctan u when the sign is −1; |u| at most a third. -/
def fxArc (sign u : Int) : Int := fxMul u (oddSeries (sign * fxMul u u) 150 0 fxOne)

/-- π by Machin's formula. -/
def fxPi : Int := 16 * fxArc (-1) (fxOne / 5) - 4 * fxArc (-1) (fxOne / 239)

/-- ln 2 = 2 artanh (1/3). -/
def fxLn2 : Int := 2 * fxArc 1 (fxOne / 3)

/-- sin and cos of 0 to π/2. -/
def fxSin (r : Int) : Int := series (-(fxMul r r)) (fun i => ((2 * i + 2) * (2 * i + 3) : Nat)) 60 0 r
def fxCos (r : Int) : Int := series (-(fxMul r r)) (fun i => ((2 * i + 1) * (2 * i + 2) : Nat)) 60 0 fxOne

/-- The sine of k quarter turns and an angle of 0 to π/2. -/
def fxTurn (k : Int) (r : Int) : Int :=
  match k % 4 with
  | 0 => fxSin r
  | 1 => fxCos r
  | 2 => -fxSin r
  | _ => -fxCos r

/-- R130: sin of a + k quarter turns, the argument reduced modulo π/2; a is not negative. -/
def fxSinTurn (a k : Int) : Int := let h := fxPi / 2; fxTurn (a / h + k) (a % h)

/-- R130: sin of π a + k quarter turns, the argument reduced exactly. -/
def fxSinPiTurn (a k : Int) : Int := let h := fxOne / 2; fxTurn (a / h + k) (fxMul (a % h) fxPi)

/-- e^z − 1, for z of 0 to 20. -/
def fxExpm1 (z : Int) : Int := series z (fun i => (i + 2 : Nat)) 240 0 z

/-- tanh of 0 to 10. -/
def fxTanh (a : Int) : Int := let t := fxExpm1 (2 * a); t * fxOne / (t + 2 * fxOne)

/-- The exact result of a function that R129 does not give, to the precision of the fixed point. -/
def specialExactly (fn : Special) (x : Dyadic) : Dyadic :=
  let a := ({ x with neg := false } : Dyadic).fixed
  let of (v : Int) (e : Int) : Dyadic := ⟨decide (v < 0), v.natAbs, e - fxBits⟩
  let odd (y : Dyadic) : Dyadic := { y with neg := y.neg != x.neg }
  match fn with
  | .sin | .sincos => odd (of (fxSinTurn a 0) 0)
  | .cos => of (fxSinTurn a 1) 0
  | .sinpi => odd (of (fxSinPiTurn a 0) 0)
  | .cospi => of (fxSinPiTurn a 1) 0
  | .exp2 => let f := x.fixed; of (fxOne + fxExpm1 (fxMul (f % fxOne) fxLn2)) (f / fxOne)
  | .log2 =>
    -- x = 2^k (1 + g), and ln (1 + g) = 2 artanh (g / (2 + g))
    let g := (⟨false, x.man, -(Nat.log2 x.man : Int)⟩ : Dyadic).fixed - fxOne
    of (x.log2 * fxOne + 2 * fxArc 1 (g * fxOne / (2 * fxOne + g)) * fxOne / fxLn2) 0
  | .tanh => odd (of (fxTanh a) 0)
  | .rcp => x.inv
  | .rsqrt => x.inv.sqrt
  | .sqrt => x.sqrt

/-- R128: the bound of a function in half ulps. -/
def boundHalves (fn : Special) : Nat :=
  match fn with
  | .sin | .cos | .sincos => 3
  | .tanh => 4
  | _ => 2

/-- R128: a result lies within the bound of its function about the exact result y. RCP and RSQRT are judged exactly; the others by
y in fixed point, which may let pass a result that exceeds its bound by 2^-20 ulp (log entry 4). -/
def withinBound (fn : Special) (x : Dyadic) (v : Nat) : Bool :=
  match fp32.value v with
  | .num d =>
    let one : Dyadic := ⟨false, 1, 0⟩
    match fn with
    | .rcp =>
      let u : Dyadic := ⟨false, 1, ulpExp (-x.log2 - 1)⟩
      let err := (d.mul x).add { one with neg := true }
      ({ err with neg := false } : Dyadic).le (u.mul { x with neg := false })
    | .rsqrt =>
      let u : Dyadic := ⟨false, 1, ulpExp (-(x.log2 / 2) - 1)⟩
      let lo := d.add { u with neg := true }
      let hi := d.add u
      !d.neg && ((lo.mul lo).mul x).le one && one.le ((hi.mul hi).mul x)
    | _ =>
      let y := specialExactly fn x
      let bound : Dyadic := ⟨false, boundHalves fn * 2 ^ 19 + 1, ulpExp y.log2 - 20⟩
      let err := d.add { y with neg := !y.neg }
      ({ err with neg := false } : Dyadic).le bound && (fn != .tanh || ({ d with neg := false } : Dyadic).le one)
  | _ => false

/-- R127 to R130: the result of a special function: exact where R129 gives it; otherwise the part's own fixed function of the
input bits and modifiers, a free value within the bound of R128 (where it lies outside, the exact result rounded to nearest stands). -/
def specialValue (fn : Special) (ftz : Bool) (rm : Nat) (a0 : Word) : Word :=
  let a := fp32.flush ftz a0.toNat
  let r := match specialExact fn (Rounding.ofCode rm) a with
    | some r => r
    | none =>
      let v := (Config.specialFunction fn.code (BitVec.ofNat 32 a) rm).toNat
      match fp32.value a with
      | .num x => if withinBound fn x v then v else roundTo fp32 .rne false (.num (specialExactly fn x))
      | _ => fp32.nanCode
  BitVec.ofNat 32 (fp32.flush ftz r)

end Sys2Proof.Machine
end

