-- ==== Sys2Proof/Machine/Flags.lean ====
section
/-! DEFINITION. Condition codes (R89, R117), carries (R92), and the completion flags of a warp (R17, R18, R72, R268). -/

namespace Sys2Proof.Machine

open Sys2Proof

/-! ### Conditions -/

/-- R89: a condition code over the order of two operands and their conjunction. -/
def condition (code : Nat) (eq lt common : Bool) : Bool :=
  match code with
  | 0 => eq
  | 1 => !eq
  | 2 => lt
  | 3 => lt || eq
  | 4 => !lt && !eq
  | 5 => !lt
  | 6 => common
  | _ => !common

/-- R89 on two words of any width; codes 2 to 5 compare unsigned when told to. -/
def compareWords {w : Nat} (code : Nat) (unsigned : Bool) (a b : BitVec w) : Bool :=
  condition code (a == b) (if unsigned then a.ult b else a.slt b) (a &&& b != 0)

/-- R98: the three-way result. -/
def threeWay (a b : Word) (unsigned : Bool) : Word :=
  if (if unsigned then a.ult b else a.slt b) then 0xFFFFFFFF#32 else if a = b then 0 else 1

/-- R117: a floating-point condition; `u` is the unordered-true variant. -/
def floatCondition (code : Nat) (u : Bool) (order : Option Int) : Bool :=
  match order with
  | none => if code = 6 then false else if code = 7 then true else u
  | some o => if code = 6 then true else if code = 7 then false else condition code (o == 0) (decide (o < 0)) false

/-- R117: the register result of FCMP. -/
def floatOrder (order : Option Int) : Word :=
  match order with
  | none => 2
  | some o => if o < 0 then 0xFFFFFFFF#32 else if o = 0 then 0 else 1

/-- R92: sum and carry. -/
def addCarry (a b : Word) (cin : Bool) : Word × Bool :=
  let x := a.toNat + b.toNat + (if cin then 1 else 0)
  (BitVec.ofNat 32 x, decide (2 ^ 32 ≤ x))

/-- R92: difference and borrow. -/
def subBorrow (a b : Word) (cin : Bool) : Word × Bool :=
  let y := b.toNat + (if cin then 1 else 0)
  (a - b - (if cin then 1 else 0), decide (a.toNat < y))

/-! ### Completion flags -/

def Warp.flag (w : Warp) (f : Nat) : BitVec 6 := Tab.getD w.flags f 0

def Warp.setFlag (w : Warp) (f : Nat) (v : BitVec 6) : Warp := { w with flags := Tab.set 0 w.flags f v }

/-- R17: one more operation counted. -/
def Warp.countUp (w : Warp) (f : Nat) : Warp := w.setFlag f (w.flag f + 1)

/-- R17: one operation completed. -/
def Warp.countDown (w : Warp) (f : Nat) : Warp := w.setFlag f (w.flag f - 1)

/-- R138: every flag of a mask is zero. -/
def Warp.flagsZero (w : Warp) (mask : BitVec 12) : Bool := (List.range 12).all fun f => !mask.getLsbD f || w.flag f == 0

/-- R35 FLAGNZ. -/
def Warp.flagsNonzero (w : Warp) : Word :=
  (List.range 12).foldl (fun m f => if w.flag f = 0 then m else m ||| BitVec.twoPow 32 f) 0

/-- R17: the warps of a list of threads, each once. -/
def warpsOf (l : List Member) : List Nat := distinct (l.map (·.wid))

/-- R17: each warp of a list counts one operation on a flag; none counts nothing. -/
def State.countUp (s : State) (wids : List Nat) (f : Option Nat) : State :=
  match f with
  | none => s
  | some f => wids.foldl (fun t w => t.modWarp w (·.countUp f)) s

/-- The flags that an operation counts, for the warps of its threads. -/
def countsOf (wids : List Nat) (f : Option Nat) : List (Nat × Nat) :=
  match f with | none => [] | some f => wids.map fun w => (w, f)

def State.countDown (s : State) (counts : List (Nat × Nat)) : State :=
  counts.foldl (fun t (w, f) => t.modWarp w (·.countDown f)) s

/-- R18: some warp of a list holds the flag at 63. -/
def State.flagFull (s : State) (wids : List Nat) (f : Option Nat) : Bool :=
  match f with
  | none => false
  | some f => wids.any fun w => match s.warp? w with | some x => x.flag f == 63 | none => false

/-- R268: a completion at a time is counted on a flag, to be observed when the flag next is. -/
def Warp.noteFlagTime (w : Warp) (f : Nat) (t : LTime) : Warp :=
  { w with flagTimes := Tab.put w.flagTimes f (match Tab.get? w.flagTimes f with | some u => maxs u t | none => t) }

/-- R268: the warp observes the completions counted on the flags of a mask, and acquires from each. -/
def Warp.observeFlags (w : Warp) (mask : BitVec 12) : Warp :=
  (List.range 12).foldl (fun w f =>
    if mask.getLsbD f then
      match Tab.get? w.flagTimes f with
      | some t => Warp.acquire { w with ots := maxs w.ots t, flagTimes := Tab.del w.flagTimes f }
      | none => w
    else w) w

end Sys2Proof.Machine
end

