-- ==== Sys2Proof/Machine/LaneCycles.lean ====
section
/-! DEFINITION. The lane-cycle record (R361 to R365): what a cycle of a quarter is charged to, and how the private counts of
the cores are added into a context's block. -/

namespace Sys2Proof.Machine

open Sys2Proof

/-- R363, R364: the context keeps a lane-cycle record. -/
def Ctx.charged (c : Ctx) : Bool := c.lcbase != 0 && c.lcctl.getLsbD 0

def laneKey (core ctx : Nat) : Nat := core * 4096 + ctx

/-- R363: the bins that hold a PC, and the total (64). -/
def Ctx.binsOf (c : Ctx) (pc : Nat) : List Nat :=
  ((List.range c.lcbins.length).filter fun b =>
    match c.lcbins[b]? with
    | some (lo, hi) => decide (lo.toNat ≤ pc) && decide (pc < hi.toNat)
    | none => false) ++ [64]

/-- R361: lane-cycles of the five classes charged to a PC. -/
def State.charge (s : State) (core ctx pc : Nat) (counts : List Nat) : State :=
  match s.ctx? ctx with
  | none => s
  | some c =>
    if !c.charged then s
    else
      let t := (c.binsOf pc).foldl (fun t b =>
        (List.range 5).foldl (fun t k => Tab.set 0 t (b * 5 + k) (Tab.getD t (b * 5 + k) 0 + counts.getD k 0)) t)
        (Tab.getD s.laneCycles (laneKey core ctx) [])
      { s with laneCycles := Tab.put s.laneCycles (laneKey core ctx) t }

/-- R363: the byte offset of a counter in the block, by bin × 5 + class. -/
def counterOffset (i : Nat) : Nat := if i < 320 then 0x400 + 40 * (i / 5) + 8 * (i % 5) else 0xE00 + 8 * (i % 5)

/-- R217, R365: one addition by a core, as an atomic at the counter's home, after the core's own dirty bytes of the line. Answers whether it
is done; the home may first have to be made ready. Another package adds as its atomics do, without saturation (log entry 113). -/
def State.addAt (s : State) (core ctx pa n : Nat) : Bool × State :=
  let line := pa / 128
  match s.flushLine core line with
  | (none, t) => (false, t)
  | (some t, _) =>
    if isRemote pa then
      let h : HomeReq := ⟨none, none, line, ctx, t.fresh, core, core, 4, [⟨t.fresh, 0, pa, 8, 0, BitVec.ofNat 64 n, 0⟩], .sent⟩
      (true, { t with mem := { t.mem with homeReqs := Tab.put t.mem.homeReqs t.fresh h }, fresh := t.fresh + 1 })
    else
      match t.openOwned line ctx (byteMask (pa % 128) 8) true none true none core fun h => h.core == core with
      | (false, u) => (false, u)
      | (true, u) =>
        let old := lineRead (u.homeView line (u.keyTag ctx)) (pa % 128) 8 % 2 ^ 48
        let (_, v) := (u.carryOut core line).homeStore line (u.home line).rts
        (true, (v.writeHome line (v.keyTag ctx) ctx (lineValue (pa % 128) 8 (min (2 ^ 48 - 1) (old + n))) (byteMask (pa % 128) 8)).carryBack core line)

/-- R365: one addition, through the context's translation; dropped, with LCERR set, where the page is not mapped or not writable. While
writes to the page wait, so does the addition (R394). -/
def State.addCounter (s : State) (core ctx i n : Nat) : Bool × State :=
  match s.ctx? ctx with
  | none => (true, s)
  | some c =>
    match s.translate core ctx (c.lcbase.toNat + counterOffset i) .write with
    | (.ok pa, t) => t.addAt core ctx pa n
    | (.blocked, t) => (false, t)
    | (_, t) => (true, t.modCtx ctx fun c => { c with lcctl := c.lcctl ||| 2 })

/-- R365: one core's private counts of a context are added into its block. Counts whose homes are not ready stay private. -/
def State.flushLanes (s : State) (core ctx : Nat) : State :=
  (Tab.getD s.laneCycles (laneKey core ctx) []).foldl (fun t (i, n) =>
    match t.addCounter core ctx i n with
    | (true, u) =>
      let rest := Tab.del (Tab.getD u.laneCycles (laneKey core ctx) []) i
      { u with laneCycles := if rest = [] then Tab.del u.laneCycles (laneKey core ctx) else Tab.put u.laneCycles (laneKey core ctx) rest }
    | (false, u) => u) s

/-- R365: every core's counts of a context. -/
def State.flushAllLanes (s : State) (ctx : Nat) : State :=
  (s.laneCycles.filter fun (k, _) => k % 4096 == ctx).foldl (fun t (k, _) => t.flushLanes (k / 4096) ctx) s

/-- R365: no count of the context is private. -/
def State.lanesFlushed (s : State) (ctx : Nat) : Bool := s.laneCycles.all fun (k, _) => k % 4096 != ctx

end Sys2Proof.Machine
end

