-- ==== Sys2Proof/Machine/Watch.lean ====
section
/-! DEFINITION. What is observed of an access: counted regions (R210), watchpoint boxes (R351 to R353), scratchpad races
(R358 to R360), and the records of each (R341). -/

namespace Sys2Proof.Machine

open Sys2Proof

/-! ### Positions -/

/-- R351: where an address lies, as a block names it: a scratchpad byte by its core-slot name, or a global virtual address. -/
def State.position (s : State) (blk va : Nat) : Bool × Nat :=
  if va < scratchBase then (false, va)
  else
    let off := va - scratchBase
    match s.block? blk with
    | some b => (true, if 0xFF80000 ≤ off then b.core * 2 ^ 19 + b.firstLine * 128 + (off - 0xFF80000)
                       else clusterOf b.core * 96 * 2 ^ 19 + off)
    | none => (true, off)

/-- R210: the region that covers a position. -/
def State.regionAt (s : State) (ctx : Nat) (p : Bool × Nat) : Option (Nat × Region) :=
  match s.ctx? ctx with
  | none => none
  | some c => c.regions.find? fun (_, r) =>
      let b := s.position r.block r.base.toNat
      !(b.1 && (s.block? r.block).any (·.saved)) && b.1 == p.1 && decide (b.2 ≤ p.2) && decide (p.2 < b.2 + r.len)

/-! ### Watchpoints -/

/-- R351: a dimension: stride, first and last coordinate. -/
structure Dim where
  stride : Nat
  lo : Nat
  hi : Nat
  deriving DecidableEq, Repr

def watchField (d : BitVec 512) (hi lo : Nat) : Nat := field d.toNat hi lo

def watchDims (d : BitVec 512) : List Dim :=
  (List.range (watchField d 70 69 + 1)).map fun i =>
    ⟨watchField d (159 + 64 * i) (128 + 64 * i), watchField d (175 + 64 * i) (160 + 64 * i), watchField d (191 + 64 * i) (176 + 64 * i)⟩

/-- R351: a byte lies in an element reached from `start` by some coordinates. -/
def inBox (size x : Nat) : List Dim → Nat → Bool
  | [], start => decide (start ≤ x) && decide (x < start + size)
  | d :: rest, start => (List.range (d.hi + 1 - d.lo)).any fun c => inBox size x rest (start + (d.lo + c) * d.stride)

/-- R351, R352: a byte read or written lies in the box of a watchpoint of matching kind. -/
def State.watchMatches (s : State) (blk : Nat) (d : BitVec 512) (reads writes : Bool) (p : Bool × Nat) : Bool :=
  let kind := watchField d 68 67
  let base := s.position blk (watchField d 55 0)
  ((kind.testBit 0 && reads) || (kind.testBit 1 && writes)) && base.1 == p.1 &&
    inBox (2 ^ watchField d 66 64) p.2 (watchDims d) base.2

/-- The lowest watchpoint of a context that a byte matches. -/
def State.watchIndex (s : State) (ctx blk : Nat) (reads writes : Bool) (p : Bool × Nat) : Option Nat :=
  match s.ctx? ctx with
  | none => none
  | some c => (c.watches.find? fun (_, d) => s.watchMatches blk d reads writes p).map (·.1)

/-- R352: of n bytes from an address, the first that matches and the lowest watchpoint matched. -/
def State.watchSpan (s : State) (ctx blk va n : Nat) (reads writes : Bool) : Option (Nat × Nat) :=
  let hits := (List.range n).filterMap fun i => (s.watchIndex ctx blk reads writes (s.position blk (va + i))).map fun k => (va + i, k)
  match hits with
  | [] => none
  | (x, k) :: rest => some (x, rest.foldl (fun b h => min b h.2) k)

/-- R352: watchpoints match for a warp. -/
def State.watching (s : State) (wid : Nat) : Bool :=
  s.recField wid 486 486 == 1 && (s.warp? wid).any fun w => w.level == 0

def State.blockOf (s : State) (wid : Nat) : Nat := match s.warp? wid with | some w => w.block | none => 0

/-! ### Races -/

/-- R358: the shadow state of a word without one. -/
def freshShadow : BitVec 6 × BitVec 10 := (63, 0)

/-- R359: what a race report names: the word's offset in the block, the earlier writer, the accessing warp, the epoch, and
whether it writes. -/
structure RaceReport where
  off : Nat
  writer : Nat
  warp : Nat
  epoch : Nat
  write : Bool
  deriving DecidableEq, Repr

/-- R359: the check of one word of the accessing warp's block, and the shadow after it. -/
def raceCheck (b : Block) (word warp : Nat) (write : Bool) : Option RaceReport × Block :=
  let sh := Tab.getD b.shadow word freshShadow
  let hit := sh.1 != 63 && sh.1.toNat != warp && sh.2 == b.epoch
  (if hit then some ⟨word * 4, sh.1.toNat, warp, b.epoch.toNat, write⟩ else none,
   if write then { b with shadow := Tab.set freshShadow b.shadow word (BitVec.ofNat 6 warp, b.epoch) } else b)

/-- R359: the words of an access of n bytes at a scratchpad byte; those of another block's lines carry no state of this
block. -/
def raceWords (b : Block) (addr n : Nat) : List Nat :=
  let base := b.core * 2 ^ 19 + b.firstLine * 128
  if base ≤ addr ∧ addr < base + b.lines * 128 then
    let o := addr - base
    (List.range ((o + n - 1) / 4 + 1 - o / 4)).map (o / 4 + ·)
  else []

/-- R359: an access of one thread, in a launch with race detection. Answers the reports made. -/
def State.raceAccess (s : State) (wid addr n : Nat) (write : Bool) : List RaceReport × State :=
  match s.warp? wid with
  | none => ([], s)
  | some w =>
    match s.block? w.block with
    | none => ([], s)
    | some b =>
      if s.recField wid 484 484 = 0 then ([], s)
      else
        let (reports, b') := (raceWords b addr n).foldl (fun (l, b) word =>
          match raceCheck b word w.index write with
          | (some r, b') => (l ++ [r], b')
          | (none, b') => (l, b')) ([], b)
        (reports, s.modBlock w.block fun _ => b')

/-- R341, R360: the record of a report. -/
def State.recordRace (s : State) (wid : Nat) (r : RaceReport) : State :=
  s.recordWarp wid 0x11 (r.off + place 19 r.writer + place 25 r.warp + place 31 r.epoch + place 41 (if r.write then 1 else 0))

/-! ### Records of counted lines and watchpoints -/

/-- R341: a line dropped under R215, or replaced under R212. Lines are dropped one after the other, each in a cycle of its own (log
entry 98). -/
def State.recordUnder (s : State) (core ctx : Nat) (place? : Option Nat) (line count region : Nat) : State :=
  let payload := line % 2 ^ 49 + place 49 count + place 57 region
  match place? with
  | some wid => s.recordWarpLater wid 0x08 payload
  | none => s.recordLater core 4 0 ctx 0x08 payload

/-- R341: an OVERREAD fault of a group, or an engine status. -/
def State.recordOver (s : State) (core ctx : Nat) (place? : Option Nat) (line region lane : Nat) : State :=
  let payload := line % 2 ^ 49 + place 49 region + place 55 lane
  match place? with
  | some wid => s.recordWarp wid 0x09 payload
  | none => s.record core 4 0 ctx 0x09 payload

/-- R352, R353. -/
def State.recordWatch (s : State) (core ctx : Nat) (place? : Option Nat) (index : Nat) (engine : Bool) (addr : Nat) : State :=
  let payload := index + place 4 (if engine then 1 else 0) + place 5 (addr % 2 ^ 56)
  match place? with
  | some wid => s.recordWarp wid 0x13 payload
  | none => s.record core 4 0 ctx 0x13 payload

end Sys2Proof.Machine
end

