-- ==== Sys2Proof/Machine/Ops.lean ====
section
/-! DEFINITION. The named operations every instruction is made of: fetching (R25, R59), the group that issues and its checks
(R10 to R15, R62, R73, R75, R141), the end of an instruction and of a run (R27, R107), slot-free waits (R144), accesses by
virtual address, fatal faults (R332), taking a trap (R311 to R320) and returning from one (R322). -/

namespace Sys2Proof.Machine

open Sys2Proof

/-! ### Fetching -/

inductive Fetch where
  | word (v : BitVec 64)
  | fault (code : BitVec 16)
  /-- R330: the page that a fault on it waits for -/
  | replay (page : Nat)
  deriving DecidableEq, Repr

/-- R25, R330: the byte address behind an instruction address. Fetches look at the TLB and do not fill it. -/
def State.fetchAddress (s : State) (core ctx va : Nat) : Xlat :=
  if scratchBase ≤ va then .fault Code.xfetch else (s.translate core ctx va .fetch).1

/-- R59: one halfword of code, as the home holds it (log entry 13). Device memory under a key that is gone gives none (R384). -/
def State.fetchHalf (s : State) (core ctx va : Nat) : Fetch :=
  match s.fetchAddress core ctx va with
  | .ok pa =>
    if !isHost pa && !isRemote pa && s.keyGone ctx then .fault Code.keyGone
    else .word (BitVec.ofNat 64 (lineRead (s.homeView (pa / 128) (s.keyTag ctx)) (pa % 128) 2))
  | .fault c => .fault c
  | _ => .replay (va / 65536)

/-- n halfwords of code, little-endian. -/
def State.fetchHalves (s : State) (core ctx va : Nat) : Nat → Fetch
  | 0 => .word 0
  | n + 1 =>
    match s.fetchHalf core ctx va with
    | .word v =>
      match s.fetchHalves core ctx (va + 2) n with
      | .word r => .word (v ||| (r <<< 16))
      | f => f
    | f => f

/-- R27: the header word at a run address. -/
def State.fetchHeader (s : State) (core ctx va : Nat) : Fetch := s.fetchHalves core ctx va 2

/-- R59: the instruction at an address, as long as its first halfword says. -/
def State.fetchInstr (s : State) (core ctx va : Nat) : Fetch :=
  match s.fetchHalf core ctx va with
  | .word v => s.fetchHalves core ctx va (lengthOf (v.extractLsb' 0 16) / 2)
  | f => f

/-- The 9-bit opcode of an instruction word of 32 or 64 bits; none of a 16-bit one. -/
def opcodeOf (w : BitVec 64) : Option Nat :=
  match lengthOf (w.extractLsb' 0 16) with
  | 4 => some (opcode32 (w.extractLsb' 0 32))
  | 8 => some (opcode64 w)
  | _ => none

/-! ### The issuing group -/

/-- R74. -/
inductive Place where
  | any | leading | ending
  deriving DecidableEq, Repr

/-- What every check before an instruction's own effect needs to know of it: length, guard, position in the run, the registers
it names, the number of consecutive registers of each, the flag select of a long-latency instruction, and issue cycles. -/
structure Shape where
  len : Nat
  guard : BitVec 4
  sense : BitVec 1
  place : Place := .any
  regs : List (Nat × Nat) := []
  /-- registers named for R10 alone -/
  named : List (Nat × Nat) := []
  flag : Option (BitVec 1) := none
  cycles : Nat := 1
  /-- further register rules of the entry hold -/
  fits : Bool := true
  deriving DecidableEq, Repr

/-- R139, R141: the group that holds the focused quarter's slot, at one instruction. -/
structure Env where
  q : Nat
  group : Group
  hdr : Word
  pos : Nat
  pc : Nat
  len : Nat
  guard : BitVec 4
  sense : BitVec 1
  /-- R13: the members that execute the instruction, in ascending lane order -/
  exec : List Member
  deriving DecidableEq, Repr

def Env.core (e : Env) : Nat := coreOfQuarter e.q
def Env.members (e : Env) : List Member := e.group.members

/-- The context of a group, from its seed's warp. -/
def State.ctxOfGroup (s : State) (g : Group) : Nat := s.ctxOf g.seed

def State.ctxEnded (s : State) (c : Nat) : Bool := match s.ctx? c with | some x => x.ended | none => false

/-- The group at its instruction; none when the slot is free or the context has ended (R332). -/
def State.env? (s : State) (sh : Shape) : Option Env :=
  match (s.quarter s.focus).slot with
  | none => none
  | some g =>
    match g.members.head?.bind s.thread? with
    | none => none
    | some t =>
      if s.ctxEnded (s.ctxOfGroup g) then none
      else some
        { q := s.focus, group := g, hdr := t.rhdr, pos := t.pos.toNat, pc := t.pc.toNat, len := sh.len, guard := sh.guard,
          sense := sh.sense,
          exec := g.members.filter fun m => match s.thread? m with | some u => guardHolds u sh.guard sh.sense | none => false }

/-- R25: the launch of a group has run code of these pages. -/
def State.ranCode (s : State) (e : Env) (l : List Nat) : State :=
  match (s.warp? (e.group.members.headD ⟨0, 0⟩).wid).bind fun w => s.block? w.block with
  | some b => s.modLaunch b.launch fun x => { x with pages := (l.filter fun p => !x.pages.contains p) ++ x.pages }
  | none => s

/-- R25: the pages of the instruction of the group that holds the slot, `len` bytes long, and of the run header before it. -/
def State.fetched (s : State) (len : Nat) : State :=
  match s.env? { len := 0, guard := 15, sense := 0 } with
  | some e => s.ranCode e (distinct [(if e.pos = 0 then e.pc - 4 else e.pc) / 65536, (e.pc + len - 1) / 65536])
  | none => s

/-- R10, R12: the registers named exist and are aligned. -/
def regsFit (alloc : Nat) (l : List (Nat × Nat)) : Bool := l.all fun (r, n) => r % n == 0 && decide (r + n ≤ alloc)

/-- R75. -/
def placeFits (p : Place) (hdr : Word) (pos : Nat) : Bool :=
  match p with
  | .any => true
  | .leading => pos == 0
  | .ending => pos + 1 == hdrLen hdr

/-- R79: the checks that do not depend on the guard. -/
def Env.legal (e : Env) (s : State) (sh : Shape) : Bool :=
  !(sh.guard == 15 && sh.sense == 1) && (decide (sh.guard.toNat < 12) || sh.guard == 15) &&
  placeFits sh.place e.hdr e.pos && sh.fits &&
  e.members.all fun m => match s.warp? m.wid with | some w => regsFit w.alloc (sh.regs ++ sh.named) | none => false

/-! ### The scoreboard (R19, R167) -/

/-- Registers an access of that many bytes fills. -/
def regsOfSize (n : Nat) : Nat := if n ≤ 4 then 1 else n / 4

/-- The loads a warp has deferred (R315). -/
def Warp.defers (w : Warp) (op : Nat) : Bool := w.deferred.any fun (_, d) => d.op == op

def sincosCode : Nat := 2

/-- R127: how many registers a special function writes. -/
def sfuRegs (fn : Nat) : Nat := if fn = sincosCode then 2 else 1

/-- R170: fields of a descriptor image. -/
def descField (d : BitVec 256) (hi lo : Nat) : Nat := field d.toNat hi lo

/-- R171: columns of a B panel. -/
def panelCols (d : BitVec 256) : Nat := 8 * (descField d 41 38 + 1)

/-- The first column and the number of columns of a product. -/
def Product.columns (p : Product) (w : Warp) : Nat × Nat :=
  let n0 := (p.enc.extractLsb' 16 8).toNat - 128
  match p.groups.head? with
  | some (_, _, k) => match Tab.get? w.records k with | some r => (n0, panelCols r.desc) | none => (n0, 0)
  | none => (n0, 0)

/-- R167: a product of the warp in the fabric queue covers a column. -/
def State.columnBusy (s : State) (wid n : Nat) : Bool :=
  match s.warp? wid with
  | none => false
  | some w => (s.quarter w.quarterOf).fabric.any fun p => p.wid == wid && decide ((p.columns w).1 ≤ n) && decide (n < (p.columns w).1 + (p.columns w).2)

/-- R19: a load, atomic or special function has yet to write a register of a thread. -/
def State.pendingResult (s : State) (m : Member) (r : Nat) : Bool :=
  (s.mem.ops.any fun (i, o) =>
    o.dests.any (fun d => d.wid == m.wid && d.lane == m.lane && decide (d.reg ≤ r) && decide (r < d.reg + regsOfSize d.size)) &&
    !(s.warp? m.wid).any fun w => w.defers i) ||
  (match s.warp? m.wid with
   | some w => (s.quarter w.quarterOf).sfu.any fun e =>
      (e.waiting ++ e.served).any fun l => l.wid == m.wid && l.lane == m.lane && decide (l.d ≤ r) && decide (r < l.d + sfuRegs e.fn)
   | none => false)

/-- R19, R167: a result is pending for a register of a thread. -/
def State.pending (s : State) (m : Member) (r : Nat) : Bool :=
  s.pendingResult m r || (decide (128 ≤ r) && s.columnBusy m.wid (r - 128))

def State.pendingAny (s : State) (m : Member) (l : List (Nat × Nat)) : Bool :=
  l.any fun (r, n) => (List.range n).any fun i => s.pending m (r + i)

/-! ### Cycles of the issue slot (R361, R362) -/

/-- R361: the lanes of the group and of its seed's warp in the first four classes. -/
def Env.classes (e : Env) (s : State) (cycles : Nat) : List Nat :=
  let inGroup := e.members.map (·.lane)
  let live := match s.warp? e.group.seed with | some w => w.liveLanes | none => []
  let a := e.exec.length
  let p := inGroup.length - a
  let m := (live.filter fun l => !inGroup.contains l).length
  [a * cycles, p * cycles, m * cycles, (32 - a - p - m) * cycles, 0]

def State.chargeIssue (s : State) (e : Env) (cycles : Nat) : State :=
  s.charge e.core (s.ctxOfGroup e.group) e.pc (e.classes s cycles)

/-- R362: the run address at which a thread waits or is ready; none of one that does neither. -/
def Thread.runAddress (t : Thread) : Option VAddr :=
  match t.status with
  | .exited | .stopped => none
  | _ => some (if t.rhdr = 0 then t.pc else t.runAt)

/-- R362: the run address of the context's thread of greatest age in the quarter that is waiting or ready. -/
def State.oldestAt (s : State) (q ctx : Nat) : Option Nat :=
  let ts := (s.warps.filter fun (i, w) => w.resident && w.quarterOf == q && s.ctxOf i == ctx).flatMap fun (_, w) =>
    (w.threads.map (·.2)).filter fun t => t.runAddress.isSome
  ((ts.foldl (fun (b : Option Thread) t => match b with
    | none => some t
    | some u => if t.readySince < u.readySince then some t else b) none).bind Thread.runAddress).map (·.toNat)

/-- R362: an idle cycle of a quarter, charged to each context with a thread there but the one that holds the slot. -/
def State.chargeIdle (s : State) (q : Nat) (holder : Option Nat) : State :=
  let ctxs := distinct ((s.warps.filter fun (_, w) => w.resident && w.quarterOf == q).map fun (i, _) => s.ctxOf i)
  (ctxs.filter fun c => holder != some c).foldl (fun t c => match s.oldestAt q c with
    | some pc => t.charge (coreOfQuarter q) c pc [0, 0, 0, 0, 32]
    | none => t) s

/-- R362: a cycle in which the group holds the slot and does not issue. -/
def State.chargeStall (s : State) (e : Env) : State :=
  let ctx := s.ctxOfGroup e.group
  (s.charge e.core ctx e.pc [0, 0, 0, 0, 32]).chargeIdle e.q (some ctx)

/-! ### Runs and loops -/

def Thread.lc (t : Thread) (n : Nat) : Word := Tab.getD t.lcs n 0
def Thread.setLc (t : Thread) (n : Nat) (v : Word) : Thread := { t with lcs := Tab.set 0 t.lcs n v }

/-- R107: the check at every run address, of at most three active loops. -/
def Thread.loopEnd (t : Thread) (x : VAddr) : Nat → Thread × VAddr
  | 0 => (t, x)
  | n + 1 =>
    match t.loops with
    | [] => (t, x)
    | l :: rest =>
      if x = l.stop then
        let c := t.lc l.lcn - 1
        if c ≠ 0 then (t.setLc l.lcn c, l.start)
        else ({ t.setLc l.lcn c with loops := rest } : Thread).loopEnd x n
      else (t, x)

/-- R27, R138: the thread stands at a run address, and may be ready from the next cycle. -/
def Thread.atRun (t : Thread) (x : VAddr) (now : Nat) : Thread :=
  let (u, y) := t.loopEnd x 3
  { u with pc := y, pos := 0, rhdr := 0, readySince := now + 1, notBefore := max u.notBefore (now + 1), fell := false }

/-- The thread stands at the next instruction of its run. -/
def Thread.nextInRun (t : Thread) (len : Nat) : Thread := { t with pc := t.pc + BitVec.ofNat 56 len, pos := t.pos + 1 }

/-- R26, R27: an instruction of that length completes for a thread; `target` is where a taken branch leads. -/
def Thread.complete (t : Thread) (len : Nat) (target : Option VAddr) (now : Nat) : Thread :=
  if t.pos.toNat + 1 < hdrLen t.rhdr then t.nextInRun len
  else { t.atRun (target.getD (t.pc + BitVec.ofNat 56 len)) now with fell := target.isNone }

def State.freeSlot (s : State) (q : Nat) : State := s.modQuarter q fun x => { x with slot := none }

/-- The slot is given up when a group with some of these threads holds it. -/
def State.releaseSlot (s : State) (q : Nat) (members : List Member) : State :=
  if (s.quarter q).slot.any fun g => g.members.any members.contains then s.freeSlot q else s

def targetOf (next : List (Member × VAddr)) (m : Member) : Option VAddr := (next.find? fun x => x.1 == m).map (·.2)

/-- R352: the instruction of a WATCH frame has been executed once more. -/
def Warp.watched (w : Warp) (pc : Nat) : Warp := { w with noWatch := w.noWatch.filter fun x => x.toNat != pc }

/-- R341: a sampled run has ended. -/
def State.endSample (s : State) (q : Nat) : State :=
  let r := s.recorder (coreOfQuarter q)
  if r.branch.contains (q % 4) then s.putRecorder (coreOfQuarter q) { r with branch := r.branch.filter (· != q % 4) } else s

/-- R27, R73: the instruction completes for the whole group, which gives up the slot when its run ends. -/
def State.retire (s : State) (e : Env) (next : List (Member × VAddr)) : State :=
  let t := e.members.foldl (fun t m => t.modThread m fun x => x.complete e.len (targetOf next m) s.now) s
  let t := (warpsOf e.members).foldl (fun t w => t.modWarp w fun x => x.watched e.pc) t
  if e.pos + 1 < hdrLen e.hdr then t else (t.endSample e.q).freeSlot e.q

/-- R341: the next taken branch after a sampled run start, in the same group. -/
def State.recordBranch (s : State) (e : Env) (next : List (Member × BitVec 64)) : State :=
  match next with
  | [] => s
  | (_, x) :: _ =>
    if (s.recorder e.core).branch.contains (e.q % 4) then
      let stay := decide (next.length < e.members.length)
      let div := stay || next.any fun y => y.2 != x
      s.recordWarp e.group.seed 0x03 (x.toNat % 2 ^ 56 + place 56 (if div then 1 else 0))
    else s

/-! ### Slot-free waits (R144) -/

/-- R144: the group gives up the slot and waits as one. -/
def State.beginWait (s : State) (e : Env) (k : WaitKind) (parks : Bool) : State :=
  let id := s.fresh
  let s0 := (warpsOf e.members).foldl (fun t w => t.modWarp w fun x => x.watched e.pc) (s.endSample e.q)
  let s1 := s0.modMembers e.members fun t => if t.status = .running then { t with status := .waiting id } else t
  ({ s1 with waits := Tab.put s1.waits id ⟨e.members, e.len, k, s.now, parks⟩, fresh := id + 1 } : State).freeSlot e.q

/-- R144: the wait ends for the whole group at once, and the instruction has completed. -/
def State.endWait (s : State) (id : Nat) : State :=
  match Tab.get? s.waits id with
  | none => s
  | some w =>
    ({ s with waits := Tab.del s.waits id } : State).modMembers w.members fun t =>
      if t.status = .waiting id then { ({ t with status := .running } : Thread).complete w.len none s.now with readySince := s.now + 1 }
      else t

/-- R330: the wait ends and the group stands at the same instruction again. -/
def State.retryWait (s : State) (id : Nat) : State :=
  match Tab.get? s.waits id with
  | none => s
  | some w =>
    ({ s with waits := Tab.del s.waits id } : State).modMembers w.members fun t =>
      if t.status = .waiting id then { t with status := .running, readySince := s.now + 1 } else t

/-! ### Accesses by virtual address -/

/-- Why an access is not performed now. -/
inductive Stop where
  | fault (code : BitVec 16) (addr : BitVec 64)
  /-- R330: a replayable fault -/
  | replay (ctx page : Nat) (kind : Access) (die : Nat)
  /-- R394 -/
  | blocked (ctx page : Nat)
  /-- R352: the watchpoint and the first matching byte -/
  | watch (index : Nat) (addr : BitVec 64)
  /-- a home, or an earlier request of the core, must come first -/
  | busy
  deriving DecidableEq, Repr

def State.coreOf (s : State) (wid : Nat) : Nat := match s.warp? wid with | some w => w.core | none => 0

/-- R21 to R23, R329: where an access of a warp goes. -/
def State.resolve (s : State) (wid va : Nat) (k : Access) : Except Stop Target × State :=
  if 2 ^ 56 ≤ va then (.error (.fault Code.addrForm (BitVec.ofNat 64 va)), s)
  else if scratchBase ≤ va then
    match (s.warp? wid).bind fun w => s.scratchAt w.block va with
    | some a => (.ok ⟨true, a⟩, s)
    | none => (.error (.fault Code.scratchRange (BitVec.ofNat 64 va)), s)
  else
    let ctx := s.ctxOf wid
    let core := s.coreOf wid
    match s.translate core ctx va k with
    | (.ok pa, t) => (.ok ⟨false, pa⟩, t)
    | (.fault c, t) => (.error (.fault c (BitVec.ofNat 64 va)), t)
    | (.replay, t) => (.error (.replay ctx (va / 65536) k (dieOf core)), t)
    | (.blocked, t) => (.error (.blocked ctx (va / 65536)), t)

/-- A line of a global load that counts for these destinations has not been served. -/
def State.awaits (s : State) (p : Dest → Bool) : Bool :=
  s.mem.reqs.any fun (_, r) => !r.stage.over && (Tab.get? s.mem.ops r.op).any fun o => o.dests.any p

/-- R28, R247: a thread's stores wait until its earlier loads have their values and its earlier atomics are performed. -/
def State.threadAwaits (s : State) (m : Member) : Bool :=
  (s.awaits fun d => d.wid == m.wid && d.lane == m.lane) ||
  s.mem.homeReqs.any fun (_, h) => h.lanes.any fun l => l.wid == m.wid && l.lane == m.lane
def State.warpAwaits (s : State) (wid : Nat) : Bool :=
  (s.awaits fun d => d.wid == wid) || s.mem.homeReqs.any fun (_, h) => h.lanes.any fun l => l.wid == wid

/-! ### Counted lines and errors (R211, R213, R204, R384) -/

/-- R211. -/
def State.countOf (s : State) (t : Target) : CountState :=
  if t.scratch then (s.scratchLine t.line).count
  else match Tab.get? s.mem.counted t.line with
    | some c => if c.count = 0 then .dropped else .live c.count
    | none => .uncounted

/-- R213: what the state of a line makes of an access that is no fill. -/
def State.lineStop (s : State) (t : Target) (atomic : Bool) (va : Nat) : Option Stop :=
  match s.countOf t with
  | .dropped => some (.fault Code.overRead (BitVec.ofNat 64 va))
  | .live _ => if atomic then some (.fault Code.crState (BitVec.ofNat 64 va)) else none
  | .uncounted => none

/-- R204, R384: a poisoned scratchpad line, or device memory under a key slot that is gone. An access to a line that is absent meets no
poison: R204 says that a later access to a poisoned line raises DATAERR, R205 that one to an absent line is performed at once; the model
takes R205 (DESIGN CHOICE, log entry 114). -/
def State.dataStop (s : State) (ctx : Nat) (t : Target) (va : Nat) : Option Stop :=
  if t.scratch then
    if (s.scratchLine t.line).present && (s.scratchLine t.line).poison then some (.fault Code.dataErr (BitVec.ofNat 64 va)) else none
  else if !isHost t.addr && !isRemote t.addr && s.keyGone ctx then some (.fault Code.keyGone (BitVec.ofNat 64 va))
  else none

/-- The first of the two that stops an access. -/
def State.contentStop (s : State) (ctx : Nat) (t : Target) (va : Nat) : Option Stop := (s.lineStop t false va).or (s.dataStop ctx t va)

/-- R331, R384, R400: why a plain load that the hardware makes inside a step has no value: its line has met an error, or something must come
first. -/
def State.missStop (s : State) (core : Nat) (t : Target) (va : Nat) : Stop :=
  let failed := s.mem.reqs.find? fun (_, q) =>
    q.core == core && q.line == t.line && q.keep.isNone && (Tab.get? s.mem.ops q.op).isNone && (q.stage matches .failed _)
  if t.scratch then .busy
  else if s.lineBad t.line then .fault Code.dataErr (BitVec.ofNat 64 va)
  else match failed with
    | some (_, q) => .fault (if q.stage = .failed true then Code.keyGone else Code.dataErr) (BitVec.ofNat 64 va)
    | none => .busy

/-- R208, R213: n bytes, within one line, as a plain load of a warp that has been translated. -/
def State.plainValue (s : State) (wid : Nat) (a : Target) (va n : Nat) : Except Stop Nat × State :=
  match s.contentStop (s.ctxOf wid) a va with
  | some x => (.error x, s)
  | none => match s.plainRead wid a n with
    | (some v, u) => (.ok v, u)
    | (none, u) => (.error (u.missStop (u.coreOf wid) a va), u)

/-- R202, R205, R212: bytes of one line stored by a core at the point that performs them. -/
def State.storeLine (s : State) (wid : Nat) (t : Target) (data : Line) (mask : LineMask) : State :=
  if t.scratch then
    let l := s.scratchLine t.line
    s.putScratch t.line { l with data := mergeLine l.data data mask }
  else
    match Tab.get? s.mem.counted t.line with
    | some c => { s with mem := { s.mem with counted := Tab.put s.mem.counted t.line { c with data := mergeLine c.data data mask } } }
    | none =>
      let p := s.corePoint (s.coreOf wid)
      (s.storeAt p t.line (s.ctxOf wid) (s.pts wid) data mask).bump (pointClock p t.line) (s.pts wid)

/-- Bytes of one line stored at a virtual address by the hardware on a warp's behalf. -/
def State.storeVirtual (s : State) (wid va : Nat) (data : Line) (mask : LineMask) : Except Stop Unit × State :=
  match s.resolve wid va .write with
  | (.error x, t) => (.error x, t)
  | (.ok a, t) =>
    match t.contentStop (t.ctxOf wid) a va with
    | some x => (.error x, t)
    | none =>
      if t.warpAwaits wid then (.error .busy, t)
      else if !a.scratch && !t.canStore (t.coreOf wid) [a.line] then (.error .busy, t.evictDirty (t.coreOf wid) [a.line])
      else (.ok (), t.storeLine wid a data mask)

/-- n bytes, within one line, read at a virtual address as a plain load of a warp. -/
def State.loadVirtual (s : State) (wid va n : Nat) : Except Stop Nat × State :=
  match s.resolve wid va .read with
  | (.error x, t) => (.error x, t)
  | (.ok a, t) => t.plainValue wid a va n

/-- Stores of whole lines, one after the other; stops at the first that is not performed. -/
def State.storeLines (s : State) (wid : Nat) : List (Nat × Line × LineMask) → Except Stop Unit × State
  | [] => (.ok (), s)
  | (va, d, m) :: rest =>
    match s.storeVirtual wid va d m with
    | (.ok (), t) => t.storeLines wid rest
    | r => r

/-- Reads of whole lines at a list of addresses, in order. -/
def State.loadLines (s : State) (wid : Nat) : List Nat → Except Stop (List Nat) × State
  | [] => (.ok [], s)
  | va :: rest =>
    match s.loadVirtual wid va 128 with
    | (.ok v, t) =>
      match t.loadLines wid rest with
      | (.ok l, u) => (.ok (v :: l), u)
      | (.error x, u) => (.error x, u)
    | (.error x, t) => (.error x, t)

/-! ### Launch values of a thread (R290, R30, R34) -/

/-- R289: level entry i of a launch: its extent, domain and scope. -/
def Launch.levels (l : Launch) : Nat := l.get 447 444
def Launch.extent (l : Launch) (i : Nat) : Nat := l.get (1024 + 64 * i + 31) (1024 + 64 * i)
def Launch.domain (l : Launch) (i : Nat) : Nat := l.get (1024 + 64 * i + 34) (1024 + 64 * i + 32)

/-- The block level. -/
def Launch.blockLevel (l : Launch) : Nat := ((List.range l.levels).find? fun i => l.domain i == 2).getD 0

/-- R289: threads of a block. -/
def Launch.blockThreads (l : Launch) : Nat := (List.range (l.blockLevel + 1)).foldl (fun p i => p * l.extent i) 1

/-- R289: blocks of a launch. -/
def Launch.blockCount (l : Launch) : Nat :=
  ((List.range l.levels).filter fun i => decide (l.blockLevel < i)).foldl (fun p i => p * l.extent i) 1

/-- R290. -/
def State.globalIndex (s : State) (m : Member) : Nat :=
  match s.warp? m.wid with
  | none => 0
  | some w =>
    match s.block? w.block with
    | none => 0
    | some b =>
      match s.launch? b.launch with
      | none => 0
      | some l => w.index * 32 + m.lane + l.blockThreads * b.linear

/-- R30: start of a thread's return-spill area. -/
def State.spillBase (s : State) (m : Member) : Nat := s.recField m.wid 247 192 + s.globalIndex m * 0x800

/-! ### Fatal faults and freezes (R332, R344, R345) -/

/-- R341, R345: a recorder writes its FREEZE record and stops. -/
def State.stopRecorder (s : State) (core : Nat) (ctx : Option Nat) (fsn origin : Nat) (began : Bool) : State :=
  let written := (s.recorder core).latest
  let s1 := s.record core 4 0 (ctx.getD 0) 0x10 (fsn + place 32 origin + place 43 (if began then 1 else 0))
  let r := s1.recorder core
  s1.putRecorder core { r with stopped := true, froze := decide (Tab.getD written 4 0 ≠ s.now + 1), frozenAt := s.cycle core }

def State.enabledCores (s : State) : List Nat := (List.range 1536).filter fun c => s.part.cores.getLsbD c

/-- R345: step 3 is complete. -/
def State.allStopped (s : State) : Bool := s.enabledCores.all fun c => (s.recorder c).stopped

/-- R340, R345: a recorder restarts with a TIMEBASE record. -/
def State.restartRecorder (s : State) (core : Nat) : State :=
  let b := (s.cycle core).extractLsb' 30 34
  let t := (s.putRecorder core { s.recorder core with stopped := false, froze := false }).storeRecord core
    (recordWord (s.cycle core) 0x01 0 0 0 b.toNat)
  t.putRecorder core { t.recorder core with timebase := b }

/-- R345: step 5. -/
def State.restartRecorders (s : State) : State := s.enabledCores.foldl State.restartRecorder { s with freeze := none }

/-- R347: a freeze that finds a capsule held assembles nothing: it ends once every recorder has stopped. -/
def State.afterStop (s : State) : State :=
  match s.freeze, s.capsule with
  | some _, some c => if s.allStopped then { s with capsule := some { c with missed := c.missed + 1 } }.restartRecorders else s
  | _, _ => s

/-- R345, R347: step 1 at the originating core, which may be the last to stop, and the request it sends. -/
def State.beginFreeze (s : State) (core : Nat) (ctx : Option Nat) (cause : BitVec 16) (kind : Nat) (faults : List FaultRecord) : State :=
  let cyc := s.cycle core
  let s2 := if (s.recorder core).stopped then s else (s.stopRecorder core ctx 0 core true).afterStop
  { s2 with freezeReqs := s2.freezeReqs ++ [⟨s2.fresh, core, ctx, cause, kind, cyc, faults⟩], fresh := s2.fresh + 1 }

/-- R294: a completion entry joins its queue's entries not yet posted. -/
def State.complete (s : State) (q : Nat) (c : Completion) : State := s.modQueue q fun x => { x with completions := x.completions ++ [c] }

/-- R332: the context's launches complete with status FATAL. -/
def State.endLaunches (s : State) (ctx : Nat) (cause : BitVec 16) : State :=
  (s.launches.filter fun (_, l) => l.ctx == ctx && l.status != .complete && l.status != .fatal).foldl (fun t (i, l) =>
    ((t.modLaunch i (fun x => { x with status := .fatal, code := cause })).modQueue l.queue
        (fun x => { x with pending := x.pending.filter (· != i) })).complete l.queue ⟨l.ridx, cause, 2, BitVec.ofNat 24 l.sub⟩) s

/-- R332: a context ends. `kind` is CAUSEKIND of R348, `page` the page of a translation fault. -/
def State.fatal (s : State) (r : FaultRecord) (kind : Nat) (cause : BitVec 16) (page : Nat) : State :=
  if s.ctxEnded r.ctx then s
  else
    let s1 := s.modCtx r.ctx fun c => { c with ended := true }
    let s2 : State := { s1 with quarters := s1.quarters.map fun (q, x) =>
      (q, if x.slot.any (fun g => s.ctxOfGroup g == r.ctx) then { x with slot := none } else x) }
    let s3 := (s2.endLaunches r.ctx cause).flushAllLanes r.ctx
    let s4 : State := { s3 with host := { s3.host with
      faultEntries := s3.host.faultEntries ++ [.ended r.ctx cause kind (dieOf r.core) page] } }
    s4.beginFreeze r.core (some r.ctx) cause kind [r]

/-! ### Translation faults that wait (R330, R394) -/

/-- R330: a fault joins the record of its page, or makes one to be posted. -/
def State.joinFault (s : State) (ctx page : Nat) (kind : Access) (die n engine : Nat) (seq : BitVec 32) : State :=
  let same : PageFault → Bool := fun f => f.ctx == ctx && f.page == page && f.kind == kind && f.die == die
  if s.host.faults.any same then
    { s with host := { s.host with faults := s.host.faults.map fun f => if same f then { f with waiters := f.waiters + n } else f } }
  else
    { s with host := { s.host with
        faults := s.host.faults ++ [⟨ctx, page, kind, die, n, none, engine, seq⟩],
        faultEntries := s.host.faultEntries ++ [.page ctx page kind die] } }

/-! ### Raising a fault (R141, R311 to R314) -/

/-- A member and the cause it records. -/
abbrev Cause := Member × LaneCause

/-- R312, R313: the warp-level cause: lowest rank, then lowest code, then lowest lane. -/
def worst (l : List Cause) : Option Cause :=
  l.foldl (fun best c =>
    match best with
    | none => some c
    | some b =>
      let x := (rank c.2.code, c.2.code.toNat, c.1.lane)
      let y := (rank b.2.code, b.2.code.toNat, b.1.lane)
      if x.1 < y.1 ∨ (x.1 = y.1 ∧ (x.2.1 < y.2.1 ∨ (x.2.1 = y.2.1 ∧ x.2.2 < y.2.2))) then some c else some b) none

def fatalCode (c : BitVec 16) : Bool := c == Code.pageFault || c == Code.protect

/-- R311: the handler a synchronous fault goes to, and its level; none when it is fatal. -/
def State.route (s : State) (w : Warp) (wid : Nat) : Option (Nat × VAddr) :=
  let h := s.recField wid 311 256
  if w.level = 0 ∧ h ≠ 0 then some (1, BitVec.ofNat 56 h)
  else if w.level < 2 ∧ s.sys.khandler ≠ 0 then some (2, s.sys.khandler.extractLsb' 0 56)
  else none

/-- The cause of the lowest faulting lane. -/
def lowest (l : List Cause) : Option Cause :=
  l.foldl (fun b c => match b with | some x => if c.1.lane < x.1.lane then some c else b | none => some c) none

/-- R348: the fault record of a group. -/
def State.faultRecord (s : State) (wid : Nat) (causes : List Cause) (c : LaneCause) (pc : VAddr) : FaultRecord :=
  let w := s.warp? wid
  let ctx := s.ctxOf wid
  { code := c.code, ctx := ctx, tenant := ((s.ctx? ctx).map (·.tenant)).getD 0, core := (w.map (·.core)).getD 0,
    quarter := ((w.map (·.quarterOf)).getD 0) % 4, slot := (w.map (·.slot)).getD 0, engine := 0, seq := 0,
    lanes := maskOf (causes.map (·.1.lane)), pc := pc, addr := ((lowest causes).map (·.2.addr)).getD c.addr |>.extractLsb' 0 56 }

/-! ### Taking a trap (R314 to R320) -/

/-- R318: the address of a warp's save slot. -/
def State.saveSlot (s : State) (wid : Nat) : Nat :=
  match s.warp? wid with
  | none => 0
  | some w =>
    match (s.launchOfWarp w).bind fun l => Tab.get? s.queues l.queue with
    | some q => q.save.toNat + w.saveSlot * 0x20000
    | none => 0

/-- R318: the address of a level's trap frame. -/
def State.frameAt (s : State) (wid level : Nat) : Nat := s.saveSlot wid + 0x1C000 + (level - 1) * 0x2000

/-- R109: the results of a thread that has exited are discarded. -/
def State.discards (s : State) (m : Member) : Bool := (s.thread? m).any fun t => !t.live

/-- R132: one special-function result written, unless its thread has exited. SINCOS gives the very words of SIN and COS: R127 and
R128 bound it and do not say so (DESIGN CHOICE, log entry 4). -/
def State.writeSfu (s : State) (e : SfuEntry) (l : SfuLane) : State :=
  let m : Member := ⟨l.wid, l.lane⟩
  if s.discards m then s
  else match Special.ofCode e.fn with
  | .sincos => (s.setReg m l.d (specialValue .sin e.ftz e.rm l.src)).setReg m (l.d + 1) (specialValue .cos e.ftz e.rm l.src)
  | f => s.setReg m l.d (specialValue f e.ftz e.rm l.src)

/-- An entry of the queue without the lanes and the count of a warp. -/
def SfuEntry.without (wid : Nat) (e : SfuEntry) : SfuEntry :=
  let other : SfuLane → Bool := fun l => l.wid != wid
  { e with
    waiting := e.waiting.filter other
    served := e.served.filter other
    flags := if (e.waiting ++ e.served).all other then e.flags else e.flags.filter (fun f => f.1 != wid) }

/-- R132: every special-function result of the warp is written, and the counts of entries it has left fall. -/
def State.drainSfu (s : State) (wid : Nat) : State :=
  match s.warp? wid with
  | none => s
  | some w =>
    let q := w.quarterOf
    let mine : SfuLane → Bool := fun l => l.wid == wid
    let s1 := (s.quarter q).sfu.foldl (fun t e =>
      let ls := (e.served ++ e.waiting).filter mine
      let t1 := ls.foldl (fun t l => t.writeSfu e l) t
      if ls = [] then t1 else t1.countDown (e.flags.filter fun x => x.1 == wid)) s
    s1.modQuarter q fun x => { x with sfu := (x.sfu.map (SfuEntry.without wid)).filter fun e => !(e.waiting.isEmpty && e.served.isEmpty) }

/-- R204: the load waits on an absent line. -/
def State.opAbsent (s : State) (o : Op) : Bool := o.lines.any fun l => !(s.scratchLine l).present

/-- R315 steps 1, 2 and 4: nothing of the warp that trap entry waits for is outstanding. -/
def State.drained (s : State) (wid : Nat) (w : Warp) : Bool :=
  ((s.opsOf wid).all fun (i, o) => w.defers i || (match o.kind with | .load _ => s.opAbsent o | _ => false)) &&
  (s.quarter w.quarterOf).fabric.all (fun p => p.wid != wid || !p.inFabric)

/-- A wait that a trap interrupts: the threads keep it while they are in the handler (R320 STATE 6). -/
def WaitKind.kept : WaitKind → Bool
  | .launch f _ _ => f.var8.getLsbD 0
  | .join _ | .evwait _ | .retry (.serviceRoom ..) => true
  | _ => false

/-- A group of the warp holds its quarter's slot. -/
def State.holdsSlot (s : State) (wid : Nat) (w : Warp) : Bool := (s.quarter w.quarterOf).slot.any fun g => g.members.any (·.wid == wid)

/-- R314, R144: every live thread of the warp may be taken: none holds the slot, none is in a wait that must end first. -/
def State.takeable (s : State) (wid : Nat) (w : Warp) : Bool :=
  !s.holdsSlot wid w &&
  w.threads.all fun (_, t) =>
    match t.status with
    | .waiting id => match Tab.get? s.waits id with | some x => x.kind.kept || (match x.kind with | .mmat .. => true | _ => false) | none => true
    | _ => true

/-- R315 step 3: the loads of the warp that wait on absent lines are deferred: the counts move to the level's held counts. A
load shared with other warps is split first. -/
def State.deferLoads (s : State) (wid level : Nat) : State :=
  (s.opsOf wid).foldl (fun s (i, o) =>
    match s.warp? wid with
    | none => s
    | some w =>
      if w.defers i then s
      else
        let own := o.dests.filter (·.wid == wid)
        let others := o.dests.filter (·.wid != wid)
        let flag := (o.flags.find? (·.1 == wid)).map (·.2)
        let id := s.fresh
        let ops := if others.isEmpty then Tab.del s.mem.ops i
          else Tab.put s.mem.ops i { o with dests := others, flags := o.flags.filter (·.1 != wid) }
        let ops := Tab.put ops id { o with dests := own, flags := o.flags.filter (·.1 == wid) }
        let d : Deferred := ⟨id, o.pc, flag, maskOf (own.map (·.lane))⟩
        let s1 : State := { s with mem := { s.mem with ops := ops }, fresh := id + 1 }
        s1.modWarp wid fun w =>
          let w1 := { w with deferred := w.deferred ++ [(level, d)] }
          match flag with
          | some f => { w1.countDown f with held := Tab.set 0 w1.held (16 * level + f) (Tab.getD w1.held (16 * level + f) 0 + 1) }
          | none => w1) s

/-- R189: the warp's products are suspended, and their counts held. -/
def State.suspendProducts (s : State) (wid level : Nat) : State :=
  match s.warp? wid with
  | none => s
  | some w =>
    let q := w.quarterOf
    let mine := (s.quarter q).fabric.filter (·.wid == wid)
    let s1 := s.modQuarter q fun x => { x with fabric := x.fabric.filter (·.wid != wid) }
    s1.modWarp wid fun w => mine.foldl (fun w p =>
      let w1 := { w with suspended := w.suspended ++ [(level, p)] }
      match p.flag with
      | some f => { w1.countDown f with held := Tab.set 0 w1.held (16 * level + f) (Tab.getD w1.held (16 * level + f) 0 + 1) }
      | none => w1) w

/-- A product in a queue by its place in the issue order. -/
def insertIssued (p : Product) : List Product → List Product
  | [] => [p]
  | x :: l => if p.issued < x.issued then p :: x :: l else x :: insertIssued p l

/-- R168, R190: products that come back to a quarter take their places in its issue order, behind one that the fabric has begun; the
queue may then hold more than four (DESIGN CHOICE, log entry 100). -/
def requeue (fabric back : List Product) : List Product :=
  match fabric with
  | [] => back
  | h :: l => if h.inFabric || h.nextK != 0 then h :: back.foldl (fun q p => insertIssued p q) l else back.foldl (fun q p => insertIssued p q) (h :: l)

/-- R319: a matrix-progress entry. -/
def Product.entry (p : Product) : Nat :=
  p.enc.toNat + place 64 p.pc.toNat + place 128 p.nextK + place 160 (p.flag.getD 15) + place 168 p.planes.toNat

/-- R319: a deferred-load entry. -/
def Deferred.entry (d : Deferred) : Nat := d.pc.toNat + place 56 (d.flag.getD 15) + place 60 1 + place 64 d.lanes.toNat

/-- A list of numbers of that many bits each, the first lowest. -/
def packNat (bits : Nat) : List Nat → Nat
  | [] => 0
  | x :: l => x % 2 ^ bits + 2 ^ bits * packNat bits l

/-- Six bits for each flag. -/
def flagCounts (f : Nat → Nat) : Nat := packNat 6 ((List.range 12).map f)

/-- R319: the header of a frame. -/
def frameHeader (w : Warp) (r : TrapRequest) (level : Nat) : Nat :=
  r.code.toNat + place 16 r.kind + place 18 (level - 1) + place 19 (if w.mmode then 1 else 0) + place 20 (Nat.log2 w.part) +
  place 24 w.pts.toNat + place 48 w.ots.toNat + place 72 r.group.toNat + place 104 w.liveMask.toNat +
  place 136 (flagCounts fun f => (w.flag f).toNat) + place 208 (flagCounts fun f => (Tab.getD w.held (16 * level + f) 0).toNat) +
  place 280 ((w.suspended.filter (·.1 == level)).length) + place 283 ((w.deferred.filter (·.1 == level)).length) +
  place 288 r.others.toNat + place 320 r.info.toNat

/-- R319: the first 512 bytes of a frame. -/
def frameHead (w : Warp) (r : TrapRequest) (level : Nat) : Nat :=
  frameHeader w r level + place 512 (packNat 256 ((w.suspended.filter (·.1 == level)).map (·.2.entry))) +
  place 1536 (packNat 128 ((w.deferred.filter (·.1 == level)).map (·.2.entry)))

/-- R148, R164, R320: the thread waits at a run that is led by a cross-lane, PARTSET, MODE or matrix instruction. -/
def State.ledSpecially (s : State) (core ctx : Nat) (x : VAddr) (matrix : Bool) : Bool :=
  match s.fetchInstr core ctx (x.toNat + 4) with
  | .word w =>
    match opcodeOf w with
    | some o => (decide (0x90 ≤ o) && decide (o ≤ 0x96)) || o == 0x0C || o == 0x0D || (matrix && decide (0x100 ≤ o) && decide (o ≤ 0x107))
    | none => false
  | _ => false

/-- R320: STATE of a thread at trap entry. -/
def State.laneState (s : State) (wid lane : Nat) (w : Warp) (t : Thread) : Nat :=
  match t.status with
  | .exited => 1
  | .stopped => 2
  | .service _ _ => 5
  | .waiting id => match Tab.get? s.waits id with | some x => (match x.kind with | .retry (.serviceRoom ..) => 5 | k => if k.kept then 6 else 4) | none => 3
  | _ => if t.rhdr = 0 ∧ lane < 32 ∧ s.ledSpecially w.core (s.ctxOf wid) t.pc w.mmode then 4 else 3

/-- R320, R331: the address of a data error not yet raised. -/
def Thread.pending (t : Thread) : BitVec 56 := match t.owed with | some c => c.addr.extractLsb' 0 56 | none => t.pdaddr

/-- R320: a lane record. -/
def laneRecord (t : Thread) (st : Nat) (c : Option LaneCause) : Nat :=
  t.pc.toNat + place 56 t.pos.toNat + place 61 st + place 64 ((c.map (·.code.toNat)).getD 0) + place 96 t.rhdr.toNat +
  place 128 ((c.map (·.addr.toNat)).getD 0) + place 192 t.hidden.length + place 197 t.spill.toNat + place 208 t.wmask.toNat +
  place 224 (packNat 32 ((List.range 3).map fun n => (t.lc n).toNat)) + place 320 t.loops.length +
  place 322 (packNat 2 (t.loops.reverse.map (·.lcn))) + place 328 t.pending.toNat +
  place 384 (packNat 128 (t.loops.reverse.map fun l => l.start.toNat + place 64 l.stop.toNat)) +
  place 768 (packNat 32 ((List.range 8).map fun k => (t.reg k).toNat))

/-- R319: the lines of a frame. -/
def State.frameLines (s : State) (wid level : Nat) (w : Warp) (r : TrapRequest) : List (Nat × Line × LineMask) :=
  let base := s.frameAt wid level
  let head := frameHead w r level
  ((List.range 4).map fun i => (base + 128 * i, BitVec.ofNat 1024 (head / 2 ^ (1024 * i)), BitVec.allOnes 128)) ++
  ((List.range 32).map fun l =>
    let v := match Tab.get? w.threads l with
      | some t => laneRecord t (s.laneState wid l w t) (Tab.get? r.lanes l)
      | none => 0
    (base + 0x200 + 128 * l, BitVec.ofNat 1024 v, BitVec.allOnes 128))

/-- R315 step 5: the hidden return entries of each thread, oldest first. -/
def State.hiddenLines (s : State) (wid : Nat) (w : Warp) : List (Nat × Line × LineMask) :=
  (w.threads.filter fun (_, t) => t.live && !t.hidden.isEmpty).map fun (l, t) =>
    (s.spillBase ⟨wid, l⟩ + 0x780, BitVec.ofNat 1024 (packNat 64 (t.hidden.reverse.map (·.toNat))), byteMask 0 (8 * t.hidden.length))

/-- R317: a thread at the first instruction of a handler. -/
def Thread.inHandler (t : Thread) (entry : VAddr) (cause : LaneCause) (now : Nat) : Thread :=
  { t with pc := entry, pos := 0, rhdr := 0, loops := [], hidden := [], spill := 0, status := .running, readySince := now + 1, readyAt := none,
           notBefore := now + 1, yielded := false, wmask := 0, causes := cause :: t.causes, pdaddr := 0, owed := none, fell := false }

/-- R341: a TRAP record. An entry comes cycles after its cause (R316). -/
def State.recordTrap (s : State) (wid : Nat) (pc : VAddr) (code : BitVec 16) (kind : Nat) (ret : Bool) : State :=
  s.recordWarpLater wid 0x04 (pc.toNat + place 56 code.toNat + place 72 kind + place 74 (if ret then 1 else 0))

/-- The thread whose PC a record names: the lowest stopped one, or the lowest live one. -/
def Warp.pcOf (w : Warp) : VAddr :=
  match w.threads.find? (fun (_, t) => t.status = .stopped) with
  | some (_, t) => t.pc
  | none => match w.threads.find? (fun (_, t) => t.live) with | some (_, t) => t.pc | none => 0

/-- R181, R314: threads that wait in a rendezvous stand at their run header again. -/
def State.leaveRendezvous (s : State) (wid : Nat) : State :=
  (s.waits.filter fun (_, x) => (match x.kind with | .mmat .. => true | _ => false) && x.members.any (·.wid == wid)).foldl
    (fun t (id, x) => ({ t with waits := Tab.del t.waits id } : State).modMembers x.members fun u =>
      { u with status := .running, pc := u.pc - 4, pos := 0, rhdr := 0 }) s

/-- The home lines of `s`, held there or not as `t` has it: lines that an access without effect has brought, and those that left for them. -/
def State.heldLines (s t : State) : Tab HomeLine :=
  t.mem.homes.foldl (fun m (l, h) =>
    let old := s.home l
    if h.cached == old.cached && h.bad == old.bad then m
    else Tab.set (s.freshHome l) m l { old with cached := h.cached, owner := h.owner, dirty := h.dirty, byEngine := h.byEngine, bad := h.bad })
    s.mem.homes

/-- What an access of the hardware on a warp's behalf that cannot be made now sets in motion: a fault record (R330), once, or
what must come first at a home. -/
def State.heldUp (s : State) (x : Stop) (t : State) : State :=
  match x with
  | .replay ctx page k die =>
    if s.host.faults.any fun f => f.ctx == ctx && f.page == page && f.kind == k && f.die == die then s
    else s.joinFault ctx page k die 1 0 0
  | _ =>
    let sent := t.mem.reqs.filter fun (k, q) => decide (s.fresh ≤ k) && decide (q.stage = .remote)
    { s with
      mem := { s.mem with tlb := t.mem.tlb, bridge := t.mem.bridge, homes := s.heldLines t, dram := t.mem.dram, reqs := sent.foldl (fun m (k, q) => Tab.put m k q) s.mem.reqs }
      dram := t.dram, fresh := max s.fresh t.fresh }

/-- R353: a WATCH that an engine queue raised, as its request tells it. -/
def TrapRequest.ofEngine (r : TrapRequest) : Bool := r.code == Code.watch && r.kind == 0 && r.info.getLsbD 4

/-- R280, R283: an object of n bytes at an address in the thread's own allocation, as core and byte offset; none where it does not
lie there whole, or is not aligned (log entry 20). -/
def State.ownObject (s : State) (m : Member) (va n : Nat) : Option (Nat × Nat) :=
  if va < scratchBase ∨ 2 ^ 56 ≤ va ∨ va % n ≠ 0 then none
  else match s.block? (s.blockOf m.wid) with
  | none => none
  | some b =>
    let p := (s.position (s.blockOf m.wid) va).2
    let lo := b.core * 2 ^ 19 + b.firstLine * 128
    if lo ≤ p ∧ p + n ≤ lo + b.lines * 128 then some (b.core, p - b.core * 2 ^ 19) else none

def bwaitCode : Nat := 299

/-- R187: the barrier object and generation token of the BWAIT at which a thread is stopped. -/
def State.stoppedAt (s : State) (core ctx : Nat) (m : Member) (t : Thread) : Option (Nat × Nat × Nat) :=
  if t.status ≠ .stopped then none
  else match s.fetchInstr core ctx t.pc.toNat with
    | .word w =>
      let f := XE.ofWord w
      if opcodeOf w = some bwaitCode then
        (s.ownObject m (s.pair m f.a.toNat).toNat 16).map fun (c, o) => (c, o, (s.reg m f.b.toNat).toNat % 1024)
      else none
    | _ => none

/-- R187: every live thread of a warp is stopped at a BWAIT on one object for one phase; in a handler, what held when the warp entered
it. -/
def State.barrierStop (s : State) (wid : Nat) (w : Warp) : Option (Nat × Nat × Nat) :=
  let stops := (w.threads.filter fun (_, t) => t.live).map fun (l, t) => s.stoppedAt w.core (s.ctxOf wid) ⟨wid, l⟩ t
  match stops with
  | some x :: rest => if rest.all (· == some x) then some x else w.stoppedOn
  | _ => w.stoppedOn

/-- R317: the warp in a handler. -/
def Warp.handled (w : Warp) (level : Nat) (entry : VAddr) (r : TrapRequest) (now : Nat) : Warp :=
  { w with
    level := level, part := 32, trap := none
    preempt := if r.kind = 1 then false else w.preempt
    frameKind := if level = 1 then r.kind else w.frameKind
    watchQueue := if r.ofEngine then w.engineWatches.head?.map (fun x => (x.1, x.2.1)) else w.watchQueue
    engineWatches := if r.ofEngine then w.engineWatches.drop 1 else w.engineWatches
    threads := w.threads.map fun (l, x) => (l,
      if x.live then { x.inHandler entry ((Tab.get? r.lanes l).getD ⟨0, 0⟩) now with acked := x.acked && level == 2 } else x) }

/-- R315 to R317: the entry itself, once nothing that it waits for is outstanding. -/
def State.enter (s : State) (wid level : Nat) (entry : VAddr) (r : TrapRequest) : State :=
  let s1 := (((s.drainSfu wid).leaveRendezvous wid).deferLoads wid level).suspendProducts wid level
  match s1.warp? wid with
  | none => s
  | some w =>
    match s1.storeLines wid (s1.frameLines wid level w r ++ s1.hiddenLines wid w) with
    | (.error (.fault c a), t) => t.fatal (s.faultRecord wid [] ⟨c, a⟩ w.pcOf) 0 c (a.toNat / 65536)
    | (.error x, t) => s.heldUp x t
    | (.ok (), t) =>
      let done := (t.recordTrap wid w.pcOf r.code r.kind false).modWarp wid fun w =>
        { w.handled level entry r s.now with stoppedOn := s.barrierStop wid w }
      match t.fetchHeader w.core (t.ctxOf wid) entry.toNat with
      | .word h =>
        if !validHeader (h.extractLsb' 0 32) || entry.getLsbD 0 then
          t.fatal (s.faultRecord wid [] ⟨Code.badTarget, entry.zeroExtend 64⟩ w.pcOf) 0 Code.badTarget 0
        else done
      | _ => done

/-- R348: the cause that a fault record of the trap names, with the address of its lowest faulting lane. -/
def TrapRequest.lead (r : TrapRequest) : LaneCause := ⟨r.code, ((r.lanes.head?).map (·.2.addr)).getD 0⟩

/-- R311, R314, R315: a trap that has been raised comes about, when nothing it waits for is outstanding. -/
def State.tryEnter (s : State) (wid : Nat) : State :=
  match s.warp? wid with
  | none => s
  | some w =>
    match w.trap with
    | none => s
    | some r =>
      if w.resident && s.drained wid w && s.takeable wid w && !s.ctxEnded (s.ctxOf wid) then
        if r.kind = 0 then
          match s.route w wid with
          | some (lvl, h) => s.enter wid lvl h r
          | none => s.fatal (s.faultRecord wid (r.lanes.map fun (l, c) => (⟨wid, l⟩, c)) r.lead w.pcOf) 0 r.code 0
        else s.enter wid 1 (BitVec.ofNat 56 (s.recField wid 375 320)) r
      else s

/-- R311, R323: a pre-emption that is pending becomes a trap once the warp is at level 0 and no fault comes first. -/
def State.takePreempt (s : State) (wid : Nat) : State :=
  match s.warp? wid with
  | none => s
  | some w =>
    if w.preempt && w.level == 0 && w.trap.isNone && w.resident && s.recField wid 375 320 != 0 then
      (s.putWarp wid { w with trap := some ⟨Code.preempt, 1, 0, 0, 0, []⟩ }).tryEnter wid
    else s

/-- R353: a WATCH of an engine queue is taken at the run boundary of a warp at level 0. -/
def State.takeWatch (s : State) (wid : Nat) : State :=
  match s.warp? wid with
  | none => s
  | some w =>
    match w.engineWatches with
    | (_, _, info) :: _ =>
      if w.level == 0 && w.trap.isNone && w.resident then
        (s.putWarp wid { w with trap := some ⟨Code.watch, 0, info, 0, 0, []⟩ }).tryEnter wid
      else s
    | [] => s

/-- R141, R314: a group stops at an instruction; the warps of its members are to enter a handler. -/
def State.stopGroup (s : State) (members : List Member) (causes : List Cause) (c : LaneCause) (info : BitVec 64) : State :=
  let slots := (warpsOf members).foldl (fun m w => match s.warp? w with | some x => m ||| BitVec.twoPow 16 x.slot | none => m) 0
  let s1 := s.modMembers members fun t => if t.live then { t with status := .stopped } else t
  (warpsOf members).foldl (fun t wid =>
    let own := members.filter (·.wid == wid)
    let lanes := (causes.filter (·.1.wid == wid)).foldl (fun l x => Tab.put l x.1.lane x.2) []
    (t.modWarp wid fun w => { w with trap := some ⟨c.code, 0, info, maskOf (own.map (·.lane)), slots, lanes⟩ }).tryEnter wid) s1

/-- The cause with a code of the lowest lane that has one. -/
def causeWith (causes : List Cause) (code : BitVec 16) : Option Cause := lowest (causes.filter fun c => c.2.code == code)

/-- R341, R352: a watchpoint that a thread of a group matches is recorded, and so is an OVERREAD, whatever the group's cause. -/
def State.recordCauses (s : State) (causes : List Cause) (info : BitVec 64) : State :=
  let s1 := match causeWith causes Code.watch with
    | some (m, c) => s.recordWatch (s.coreOf m.wid) (s.ctxOf m.wid) (some m.wid) (info.toNat % 16) false c.addr.toNat
    | none => s
  match causeWith causes Code.overRead with
  | some (m, c) =>
    let region := match s.regionAt (s.ctxOf m.wid) (s.position (s.blockOf m.wid) c.addr.toNat) with | some (k, _) => k | none => 0
    s1.recordOver (s.coreOf m.wid) (s.ctxOf m.wid) (some m.wid) (c.addr.toNat / 128) region m.lane
  | none => s1

/-- R319: INFO of a frame: the operand of TRAP or BKPT, or the index of a watchpoint; otherwise zero. -/
def infoOf (code : BitVec 16) (info : BitVec 64) : BitVec 64 :=
  if code = Code.watch ∨ code = Code.userTrap ∨ code = Code.break_ then info else 0

/-- R141, R311 to R314, R332: a fault of a group at an instruction. -/
def State.raise (s : State) (q : Nat) (members : List Member) (causes : List Cause) (info : BitVec 64) : State :=
  let s := s.recordCauses causes info
  match worst (causes.filter fun c => fatalCode c.2.code), worst causes with
  | some f, _ =>
    let pc := match s.thread? f.1 with | some t => t.pc | none => 0
    s.fatal (s.faultRecord f.1.wid (causes.filter fun c => fatalCode c.2.code) f.2 pc) 0 f.2.code (f.2.addr.toNat / 65536)
  | none, some c =>
    let pc := match s.thread? c.1 with | some t => t.pc | none => 0
    if (warpsOf members).any fun wid => match s.warp? wid with | some w => (s.route w wid).isNone | none => false then
      s.fatal (s.faultRecord c.1.wid causes c.2 pc) 0 c.2.code 0
    else (s.releaseSlot q members).stopGroup members causes c.2 (infoOf c.2.code info)
  | none, none => s

/-! ### Issuing (R73, R75, R79, R141) -/

/-- What an instruction's own effect comes to. -/
inductive Effect where
  /-- it completes, and the group goes on -/
  | done (t : State)
  /-- it ends its run, and these threads go to these addresses (R106) -/
  | go (t : State) (next : List (Member × BitVec 64))
  | fault (causes : List Cause) (info : BitVec 64)
  /-- as before, with the records that its attempt made -/
  | faultAt (t : State) (causes : List Cause) (info : BitVec 64)
  /-- it is held at issue with the slot held -/
  | hold (t : State)
  /-- it waits with the slot free -/
  | wait (k : WaitKind) (parks : Bool) (t : State)
  /-- R330, R394: the pages waited for, each with the number of threads that wait: replayable faults, or one whose writes are held back -/
  | pageWait (l : List (Stop × Nat)) (t : State)
  /-- the group has left its run -/
  | left (t : State)

/-- Every member with one cause. -/
def allCauses (l : List Member) (code : BitVec 16) (addr : BitVec 64) : List Cause := l.map fun m => (m, ⟨code, addr⟩)

/-- Stops, each once, with how many threads meet it. -/
def stopCounts (l : List Stop) : List (Stop × Nat) := (distinct l).map fun x => (x, l.count x)

/-- R313, R330: what threads that cannot do their part make of an instruction; `t` keeps what their attempts have set in motion.
None when there is none. -/
def settle (s t : State) (l : List (Member × Stop)) : Option Effect :=
  let faults : List Cause := l.filterMap fun (m, x) =>
    match x with | .fault c a => some (m, ⟨c, a⟩) | .watch _ a => some (m, ⟨Code.watch, a⟩) | _ => none
  let info : BitVec 64 :=
    if (l.any fun x => match x.2 with | .watch .. => true | _ => false) then
      BitVec.ofNat 64 (l.foldl (fun b x => match x.2 with | .watch k _ => min b k | _ => b) 15) else 0
  let replays := stopCounts (l.filterMap fun (_, x) => match x with | .replay .. => some x | _ => none)
  let blocks := stopCounts (l.filterMap fun (_, x) => match x with | .blocked .. => some x | _ => none)
  if l.isEmpty then none
  else if faults.any fun c => fatalCode c.2.code then some (.fault faults info)
  else if !replays.isEmpty then some (.pageWait replays s)
  else if !faults.isEmpty then some (.fault faults info)
  else if !blocks.isEmpty then some (.pageWait blocks s)
  else some (.hold t)

/-- One attempt for each executing thread, in ascending lane order, each on the state the one before left. -/
def Env.forEach (e : Env) (s : State) (f : Member → State → Except Stop Unit × State) : List (Member × Stop) × State :=
  e.exec.foldl (fun (l, t) m => match f m t with | (.ok (), u) => (l, u) | (.error x, u) => (l ++ [(m, x)], u)) ([], s)

/-- R27, R106: a target that is no run header. A header that cannot be fetched faults when the thread stands there (R25). -/
def State.badTarget (s : State) (core ctx : Nat) (t : Thread) (x : BitVec 64) : Bool :=
  if x.extractLsb' 56 8 ≠ 0#8 ∨ x.getLsbD 0 then true
  else
    let (_, y) := t.loopEnd (x.extractLsb' 0 56) 3
    match s.fetchHeader core ctx y.toNat with
    | .word h => !validHeader (h.extractLsb' 0 32)
    | _ => false

/-- R330: every page that threads wait for has its record. -/
def State.joinFaults (s : State) (l : List (Stop × Nat)) : State :=
  l.foldl (fun t (x, n) => match x with | .replay ctx page k die => t.joinFault ctx page k die n 0 0 | _ => t) s

/-- R330, R394: the group waits at the instruction with nothing performed, until the first of the pages is dealt with. -/
def State.pageWait (s : State) (e : Env) (l : List (Stop × Nat)) : State :=
  match l with
  | (.replay ctx page k die, _) :: _ => (s.joinFaults l).beginWait e (.retry (.pageFault ctx page k die)) false
  | (.blocked ctx page, _) :: _ => s.beginWait e (.retry (.writeBlocked ctx page)) false
  | _ => s.chargeStall e

/-- R361: a fault of the group at an instruction, which has taken its issue cycles. -/
def State.raiseAt (s : State) (e : Env) (cycles : Nat) (causes : List Cause) (info : BitVec 64) : State :=
  (s.chargeIssue e cycles).raise e.q e.members causes info

/-- One instruction of the group that holds the focused quarter's slot: the checks of R79, the scoreboard of R19 and R18, then
the instruction's own effect on the threads that execute it. -/
def State.issue (s : State) (sh : Shape) (body : Env → State → Effect) : State :=
  match s.env? sh with
  | none => s
  | some e =>
    if !e.legal s sh then s.raiseAt e 1 (allCauses e.members Code.illegal (BitVec.ofNat 64 e.pc)) 0
    else if e.exec.any fun m => s.pendingAny m sh.regs then s.chargeStall e
    else if sh.flag.any fun f => s.flagFull (warpsOf e.exec) (hdrFlag e.hdr f) then s.chargeStall e
    else if e.exec.isEmpty then (s.chargeIssue e sh.cycles).retire e []
    else
      match body e s with
      | .done t => (t.chargeIssue e sh.cycles).retire e []
      | .go t next =>
        let bad := next.filter fun (m, x) => match t.thread? m with | some u => s.badTarget e.core (s.ctxOfGroup e.group) u x | none => false
        if bad.isEmpty then ((t.chargeIssue e sh.cycles).recordBranch e next).retire e (next.map fun (m, x) => (m, x.extractLsb' 0 56))
        else s.raiseAt e sh.cycles (bad.map fun (m, x) => (m, ⟨Code.badTarget, x⟩)) 0
      | .fault causes info => s.raiseAt e sh.cycles causes info
      | .faultAt t causes info => t.raiseAt e sh.cycles causes info
      | .hold t => t.chargeStall e
      | .wait k parks t => (t.chargeIssue e sh.cycles).beginWait e k parks
      | .pageWait l t => (t.chargeIssue e sh.cycles).pageWait e l
      | .left t => t.chargeIssue e sh.cycles

/-- R10, R25, R79, R141: the group stops at its PC before any instruction is read there. -/
def State.stopAt (s : State) (code : BitVec 16) : State :=
  match s.env? { len := 0, guard := 15, sense := 0 } with
  | some e => s.raiseAt e 1 (allCauses e.members code (BitVec.ofNat 64 e.pc)) 0
  | none => s

/-- R330: the group waits for a page of its next instruction. -/
def State.waitForPage (s : State) (page : Nat) : State :=
  match s.env? { len := 0, guard := 15, sense := 0 } with
  | some e => s.pageWait e [(.replay (s.ctxOfGroup e.group) page .fetch (dieOf e.core), e.members.length)]
  | none => s

/-- R362: a cycle in which no group holds the slot of the focused quarter. -/
def State.idleCycle (s : State) : State := s.chargeIdle s.focus none

/-- The flag that a long-latency instruction of the group counts. -/
def Env.flag (e : Env) (fs : BitVec 1) : Option Nat := hdrFlag e.hdr fs

/-- R298, R338: a thread of a warp at level 2, or of a privileged launch. -/
def State.privileged (s : State) (wid : Nat) : Bool :=
  (match s.warp? wid with | some w => w.level == 2 | none => false) || s.recField wid 487 487 == 1

/-! ### Plain register results -/

/-- What a meaning answers. -/
abbrev Out := Host.Outcome State Fault Refusal

/-- The registers of a field: one, an even pair, a quadruple. -/
def r1 (b : BitVec 8) : Nat × Nat := (b.toNat, 1)
def r2 (b : BitVec 8) : Nat × Nat := (b.toNat, 2)
def r4 (b : BitVec 8) : Nat × Nat := (b.toNat, 4)

def shapeX3 (len : Nat) (f : X3) (regs : List (Nat × Nat)) : Shape := { len := len, guard := f.guard, sense := f.sense, regs := regs }
def shapeXI (len : Nat) (f : XI) (regs : List (Nat × Nat)) : Shape := { len := len, guard := f.guard, sense := f.sense, regs := regs }
def shapeXM (f : XM) (regs : List (Nat × Nat)) : Shape := { len := 8, guard := f.guard, sense := f.sense, regs := regs }
def shapeXE (f : XE) (regs : List (Nat × Nat)) : Shape := { len := 8, guard := f.guard, sense := f.sense, regs := regs }
def shapeXS (len : Nat) (f : XS) (regs : List (Nat × Nat)) : Shape := { len := len, guard := f.guard, sense := f.sense, regs := regs }

/-- R87: every executing thread writes a register; the values are read from the state before. -/
def Env.write (e : Env) (s : State) (d : Nat) (v : Member → Word) : State := e.exec.foldl (fun t m => t.setReg m d (v m)) s

def Env.writePair (e : Env) (s : State) (d : Nat) (v : Member → DWord) : State := e.exec.foldl (fun t m => t.setPair m d (v m)) s

def Env.writePred (e : Env) (s : State) (p : Nat) (v : Member → Bool) : State := e.exec.foldl (fun t m => t.setPred m p (v m)) s

/-- d := g a. -/
def State.op1 (len : Nat) (f : X3) (g : Word → Word) (s : State) : State :=
  s.issue (shapeX3 len f [r1 f.d, r1 f.a]) fun e s => .done (e.write s f.d.toNat fun m => g (s.reg m f.a.toNat))

/-- d := g a b. -/
def State.op2 (len : Nat) (f : X3) (g : Word → Word → Word) (s : State) : State :=
  s.issue (shapeX3 len f [r1 f.d, r1 f.a, r1 f.b]) fun e s =>
    .done (e.write s f.d.toNat fun m => g (s.reg m f.a.toNat) (s.reg m f.b.toNat))

/-- d := g a b c. -/
def State.op3 (len : Nat) (f : X3) (g : Word → Word → Word → Word) (s : State) : State :=
  s.issue (shapeX3 len f [r1 f.d, r1 f.a, r1 f.b, r1 f.c]) fun e s =>
    .done (e.write s f.d.toNat fun m => g (s.reg m f.a.toNat) (s.reg m f.b.toNat) (s.reg m f.c.toNat))

/-- R78: d := g a imm. -/
def State.opImm (len : Nat) (f : XI) (g : Word → Word → Word) (s : State) : State :=
  s.issue (shapeXI len f [r1 f.d, r1 f.a]) fun e s => .done (e.write s f.d.toNat fun m => g (s.reg m f.a.toNat) f.imm)

/-! ### Returning from a trap (R322) -/

/-- R320: the fields of a lane record that TRET reads back. -/
structure LaneImage where
  state : Nat
  pos : Nat
  pc : VAddr
  rhdr : Word
  hidn : Nat
  spill : BitVec 9
  wmask : BitVec 12
  lcs : Tab Word
  loops : List Loop
  pdaddr : BitVec 56
  regs : List Word
  deriving DecidableEq, Repr

def LaneImage.ofNat (v : Nat) : LaneImage where
  state := field v 63 61
  pos := field v 60 56
  pc := BitVec.ofNat 56 v
  rhdr := BitVec.ofNat 32 (field v 127 96)
  hidn := min 16 (field v 196 192)
  spill := BitVec.ofNat 9 (field v 205 197)
  wmask := BitVec.ofNat 12 (field v 219 208)
  lcs := (List.range 3).foldl (fun t n => Tab.set 0 t n (BitVec.ofNat 32 (field v (255 + 32 * n) (224 + 32 * n)))) []
  loops := ((List.range (field v 321 320)).map fun i =>
    ⟨field v (323 + 2 * i) (322 + 2 * i), BitVec.ofNat 56 (field v (439 + 128 * i) (384 + 128 * i)),
      BitVec.ofNat 56 (field v (503 + 128 * i) (448 + 128 * i))⟩).reverse
  pdaddr := BitVec.ofNat 56 (field v 383 328)
  regs := (List.range 8).map fun k => BitVec.ofNat 32 (field v (799 + 32 * k) (768 + 32 * k))

/-- R322: the record names an instruction of a run, or a run header. -/
def State.imageFits (s : State) (core ctx : Nat) (x : LaneImage) : Bool :=
  !x.pc.getLsbD 0 && if x.rhdr ≠ 0 then
    validHeader x.rhdr && decide (x.pos < hdrLen x.rhdr) &&
    (match s.fetchInstr core ctx x.pc.toNat with | .word w => valid w | _ => false)
  else
    x.pos == 0 && (match s.fetchHeader core ctx x.pc.toNat with | .word h => validHeader (h.extractLsb' 0 32) | _ => false)

/-- R330: the page that must come before the record's instruction or run header can be read. -/
def State.imagePage (s : State) (core ctx : Nat) (x : LaneImage) : Option Nat :=
  match (if x.rhdr ≠ 0 then s.fetchInstr core ctx x.pc.toNat else s.fetchHeader core ctx x.pc.toNat) with
  | .replay p => some p
  | _ => none

/-- R322: a thread as the record restores it. -/
def Thread.restore (t : Thread) (x : LaneImage) (hidden : List VAddr) (st : Status) (now : Nat) : Thread :=
  { t with
    pc := x.pc, pos := BitVec.ofNat 5 x.pos, rhdr := x.rhdr, runAt := x.pc, fell := false, owed := none,
    regs := (List.range 8).foldl (fun r k => Tab.set 0 r k (x.regs.getD k 0)) t.regs,
    lcs := x.lcs, loops := x.loops, hidden := hidden, spill := x.spill, wmask := x.wmask, status := st,
    readySince := now + 1, readyAt := none, notBefore := now + 1, yielded := false, causes := t.causes.drop 1, pdaddr := 0 }

/-- R322: under TRET.next a thread that stood at the trapping instruction goes past it. -/
def State.stepPast (s : State) (core ctx : Nat) (t : Thread) : Thread :=
  if t.rhdr = 0 then t
  else match s.fetchHalf core ctx t.pc.toNat with
    | .word h => t.complete (lengthOf (h.extractLsb' 0 16)) none s.now
    | _ => t

/-- The wait a thread keeps while its warp is in a handler. -/
def State.keptWait (s : State) (m : Member) : Option Nat := (s.waits.find? fun (_, x) => x.kind.kept && x.members.contains m).map (·.1)

/-- The undelivered service entry of a thread. -/
def State.openService (s : State) (m : Member) : Option (BitVec 32 × Nat) :=
  match s.ctx? (s.ctxOf m.wid) with
  | none => none
  | some c => (c.svc.find? fun (_, e) => e.wid == m.wid && e.lane == m.lane).map fun (k, e) => (BitVec.ofNat 32 k, e.d)

/-- R320, R322: the status a restored STATE stands for. -/
def State.statusOf (s : State) (m : Member) (st : Nat) : Status :=
  match st with
  | 5 => match s.openService m with
    | some (k, d) => .service k d
    | none => match s.keptWait m with | some w => .waiting w | none => .running
  | 6 => match s.keptWait m with | some w => .waiting w | none => .running
  | _ => .running

/-- A thread leaves every wait but the one that its record names. -/
def State.leaveWaits (s : State) (m : Member) (keep : Option Nat) : State :=
  let left := s.waits.map fun (k, x) => (k, if keep = some k then x else { x with members := x.members.filter (· != m) })
  { s with waits := left.filter fun (_, x) => !x.members.isEmpty }

inductive Return where
  | done (t : State)
  | bad (code : BitVec 16)
  | stop (x : Stop) (t : State)

/-- R322: the whole of a return, for one warp. -/
def State.tret (s : State) (wid : Nat) (next : Bool) : Return :=
  match s.warp? wid with
  | none => .done s
  | some w =>
    let base := s.frameAt wid w.level
    let lanes := (List.range 32).filter fun l => (Tab.get? w.threads l).any Thread.live
    match s.loadLines wid (base :: lanes.map fun l => base + 0x200 + 128 * l) with
    | (.error x, t) => .stop x t
    | (.ok vs, s1) =>
      let head := vs.headD 0
      let images := (lanes.zip (vs.tail.map LaneImage.ofNat)).filter fun (_, x) => decide (2 ≤ x.state) && decide (x.state ≤ 6)
      let ctx := s.ctxOf wid
      if field head 19 19 ≠ (if w.mmode then 1 else 0) then .bad Code.modeState
      else if !images.all fun (_, x) => s1.imageFits w.core ctx x || (s1.imagePage w.core ctx x).isSome then .bad Code.badTarget
      else match images.findSome? fun (_, x) => s1.imagePage w.core ctx x with
      | some page => .stop (.replay ctx page .fetch (dieOf w.core)) s1
      | none =>
        let deep := images.filter fun (_, x) => x.hidn ≠ 0
        match s1.loadLines wid (deep.map fun (l, _) => s1.spillBase ⟨wid, l⟩ + 0x780) with
        | (.error x, t) => .stop x t
        | (.ok hs, s2) =>
          let saved := (deep.map (·.1)).zip hs
          let s3 := images.foldl (fun (t : State) (l, x) =>
            let m : Member := ⟨wid, l⟩
            let h := Tab.getD saved l 0
            let t1 := t.leaveWaits m (if x.state = 5 ∨ x.state = 6 then t.keptWait m else none)
            let hidden := ((List.range x.hidn).map fun j => BitVec.ofNat 56 (field h (64 * j + 55) (64 * j))).reverse
            t1.modThread m fun u =>
              let u1 := u.restore x hidden (t1.statusOf m x.state) s.now
              if next && x.state == 2 then s.stepPast w.core ctx u1 else u1) s2
          let isWatch := BitVec.ofNat 16 head == Code.watch
          let level := w.level
          let s4 := s3.modWarp wid fun w =>
            { w with
              part := 2 ^ (field head 22 20), pts := maxs w.pts (BitVec.ofNat 24 (field head 47 24)),
              ots := maxs w.ots (BitVec.ofNat 24 (field head 71 48)),
              flags := (List.range 12).foldl (fun t f => Tab.set 0 t f (Tab.getD t f 0 + Tab.getD w.held (16 * level + f) 0)) w.flags,
              held := w.held.filter fun (k, _) => k / 16 != level,
              deferred := w.deferred.filter (·.1 != level),
              suspended := w.suspended.filter (·.1 != level),
              level := level - 1,
              stoppedOn := if level = 1 then none else w.stoppedOn,
              noWatch := if isWatch && !next then (images.find? (·.2.state == 2)).map (·.2.pc) else none,
              watchQueue := if isWatch then none else w.watchQueue }
          let back := (w.suspended.filter (·.1 == level)).map (·.2)
          let s5 := s4.modQuarter w.quarterOf fun x => { x with fabric := requeue x.fabric back }
          let s6 : State := match isWatch, w.watchQueue with
            | true, some (eng, c) => { s5 with engines := Tab.modify s5.engines (eng * 4096 + c) fun x => { x with stopped := false } }
            | _, _ => s5
          let s7 := s6.recordTrap wid ((images.head?.map (·.2.pc)).getD 0) 0 0 true
          let bad := images.filter fun (_, x) => x.pdaddr ≠ 0
          let (ready, later) := bad.partition fun (l, _) => (s7.thread? ⟨wid, l⟩).any fun t => decide (t.status = .running)
          let s8 := later.foldl (fun (t : State) (l, x) =>
            t.modThread ⟨wid, l⟩ fun u => { u with owed := some ⟨Code.dataErr, x.pdaddr.zeroExtend 64⟩ }) s7
          let s8 := if ready.isEmpty then s8
            else s8.raise w.quarterOf (ready.map fun (l, _) => ⟨wid, l⟩)
              (ready.map fun (l, x) => (⟨wid, l⟩, ⟨Code.dataErr, x.pdaddr.zeroExtend 64⟩)) 0
          .done (s8.takePreempt wid)

end Sys2Proof.Machine
end

