-- ==== Sys2Proof/Machine/Reach.lean ====
section
/-! DEFINITION. How the accesses of a group are formed and checked (R21 to R24, R201, R213, R220), and what counted lines and
scratchpad lines do (R203 to R205, R211 to R215). -/

namespace Sys2Proof.Machine

open Sys2Proof

/-! ### Addresses and checks -/

/-- R22: the own-block alias. -/
def aliasBase : Nat := scratchBase + 0xFF80000

/-- R220: the address of an access: a pair with a scaled offset, or a block-relative offset in the own-block alias. -/
def State.addressOf (s : State) (own : Bool) (m : Member) (a off : BitVec 8) (size : Nat) : Nat :=
  let o : BitVec 64 := off.signExtend 64 * BitVec.ofNat 64 size
  if own then aliasBase + (s.reg m a.toNat + o.extractLsb' 0 32).toNat else (s.pair m a.toNat + o).toNat

/-- R352: the group re-executes the instruction of a WATCH frame. -/
def Env.unwatched (e : Env) (s : State) : Bool :=
  (warpsOf e.exec).any fun w => match s.warp? w with | some x => x.noWatch.any fun p => p.toNat == e.pc | none => false

/-- R352: what a watchpoint sees of an access of a thread. -/
def Env.watchStop (e : Env) (s : State) (m : Member) (va n : Nat) (reads writes : Bool) : Option Stop :=
  if s.watching m.wid && !e.unwatched s then
    (s.watchSpan (s.ctxOf m.wid) (s.blockOf m.wid) va n reads writes).map fun (x, k) => .watch k (BitVec.ofNat 64 x)
  else none

/-- R21 to R24, R220, R329, R352: the checks of one thread's access of so many bytes, and where it goes. -/
def State.checkAccess (s : State) (e : Env) (m : Member) (own : Bool) (va size : Nat) (reads writes : Bool) : Except Stop Target × State :=
  let addr := BitVec.ofNat 64 va
  if !own && decide (2 ^ 56 ≤ va) then (.error (.fault Code.addrForm addr), s)
  else if va % size ≠ 0 then (.error (.fault Code.misalign addr), s)
  else if 2 ^ 56 ≤ va then (.error (.fault Code.scratchRange addr), s)
  else
    match s.resolve m.wid va (if writes then .write else .read) with
    | (.error x, t) => (.error x, t)
    | (.ok a, t) =>
      match e.watchStop t m va size reads writes with
      | some x => (.error x, t)
      | none => (.ok a, t)

/-- A checked access of one thread. -/
structure Spot where
  m : Member
  va : Nat
  t : Target
  deriving DecidableEq, Repr

/-- Each executing thread's access, or why it is not performed, each on the state the one before left. -/
def Env.reachAll (e : Env) (s : State) (f : Member → State → Except Stop Spot × State) : List Spot × List (Member × Stop) × State :=
  e.exec.foldl (fun (r, l, t) m => match f m t with
    | (.ok x, u) => (r ++ [x], l, u)
    | (.error x, u) => (r, l ++ [(m, x)], u)) ([], [], s)

/-! ### Counted lines (R211 to R215) -/

/-- R213: the lines in scratchpads, and the global lines, of a list of accesses, each once. -/
def scratchLinesOf (l : List Spot) : List Nat := distinct ((l.filter (·.t.scratch)).map (·.t.line))
def globalLinesOf (l : List Spot) : List Nat := distinct ((l.filter (!·.t.scratch)).map (·.t.line))

def CountState.take : CountState → CountState
  | .live n => if n ≤ 1 then .dropped else .live (n - 1)
  | c => c

/-- R213: one consuming read of a scratchpad line. -/
def State.consumeScratch (s : State) (line : Nat) : State :=
  let l := s.scratchLine line
  s.putScratch line { l with count := l.count.take, data := if l.count = .live 1 then 0 else l.data }

/-- R213: one consuming read of a counted global line. -/
def State.consumeGlobal (s : State) (line : Nat) : State :=
  { s with mem := { s.mem with counted := Tab.modify s.mem.counted line fun c => { c with count := c.count - 1, data := if c.count ≤ 1 then 0 else c.data } } }

/-- R239: the counted lines whose home is a quay die. -/
def State.countedAt (s : State) (qd : Nat) : Nat := (s.mem.counted.filter fun (l, _) => homeOf l == qd).length

/-- Write-backs of copies, by point and line, one after the other; a copy may lie at an L1, and then at the slice that took its bytes. -/
def State.writeBackEach (s : State) : List (Nat × Nat) → Option State × State
  | [] => (some s, s)
  | (p, line) :: rest =>
    match s.writeBack p line none true with
    | (some t, _) => t.writeBackEach rest
    | r => r

/-- The dirty copies that a condition names, at the L2 slices or at the points before them. -/
def State.dirtyCopies (s : State) (l2 : Bool) (p : Nat → Copy → Bool) : List (Nat × Nat) :=
  (s.mem.copies.filter fun (k, c) => c.dirty != 0 && decide (3000 ≤ k / 2 ^ 49) == l2 && p (k % 2 ^ 49) c).map fun (k, _) => (k / 2 ^ 49, k % 2 ^ 49)

/-- R202: the dirty copies that a condition names go home: those before the L2 slices first, whose bytes may stop there. None while a home
must be made ready. -/
def State.flushCopies (s : State) (p : Nat → Copy → Bool) : Option State × State :=
  match s.writeBackEach (s.dirtyCopies false p) with
  | (some t, _) => t.writeBackEach (t.dirtyCopies true p)
  | r => r

/-- R202, R212: every dirty byte of a line, at whatever point, goes home. -/
def State.flushEverywhere (s : State) (line : Nat) : Option State × State := s.flushCopies fun l _ => l == line

/-- R211: 12 other lines of the set are live at the die, those that `more` names being filled by the same instruction. -/
def State.setFull (s : State) (die : Nat) (more : List Nat) (line : Nat) : Bool :=
  let live := (s.mem.counted.filter fun (_, c) => c.die == die && c.count != 0).map (·.1)
  decide (12 ≤ ((live ++ more.filter fun l => !live.contains l).filter fun l => l != line && sameSet l line).length)

/-- R239: the lines of a list, filled by one instruction, that take new entries of a quay die's directory. -/
def State.newCounted (s : State) (qd : Nat) (l : List Nat) : Nat := ((distinct l).filter fun k => homeOf k == qd && (Tab.get? s.mem.counted k).isNone).length

/-- R202, R211, R212: what must come before a counted fill of a line by a core, one of those that `more` names: room for them all at the
home's directory and in the set, and the line's dirty bytes at home. None while it has not. -/
def State.readyFill (s : State) (core : Nat) (more : List Nat) (t : Target) : Option State × State :=
  if t.scratch then (some s, s)
  else if (Tab.get? s.mem.counted t.line).isNone && decide (2 ^ 20 < s.countedAt (homeOf t.line) + s.newCounted (homeOf t.line) (t.line :: more)) then (none, s)
  else if s.setFull (dieOf core) more t.line then (none, s)
  else s.flushEverywhere t.line

/-- R212: a counted fill of a whole line. `place?` is a warp of the instruction that fills it, for the report of a count it
replaces. -/
def State.fillCounted (s : State) (ctx core : Nat) (place? : Option Nat) (t : Target) (va region n : Nat) (data : Line) : State :=
  let s1 := match s.countOf t with
    | .live k => s.recordUnder core ctx place? (va / 128) k region
    | _ => s
  if t.scratch then
    let l := s1.scratchLine t.line
    s1.putScratch t.line { l with data := data, count := .live n, poison := false }
  else { s1 with mem := { s1.mem with counted := Tab.put s1.mem.counted t.line ⟨dieOf core, n, data, ctx, region, va / 128 * 128⟩ } }

/-- An operation on each of a list in turn, each first made ready; none, with what has been set in motion, while one is not. -/
def readyAll {α : Type} (f : State → α → Option State × State) : State → List α → Option State × State
  | s, [] => (some s, s)
  | s, x :: rest =>
    match f s x with
    | (some t, _) => readyAll f t rest
    | r => r

/-! ### Descriptors (R208, R267) -/

/-- R165: the lowest-numbered executing thread of a warp. -/
def Env.uniform (e : Env) (wid : Nat) : Option Member := e.exec.find? (·.wid == wid)

/-- The lowest-numbered executing thread of the group. -/
def Env.first (e : Env) : Member := e.exec.headD ⟨0, 0⟩

/-- R208, R213: n bytes, within one line, read as a plain load at an address that must be a multiple of `align`. -/
def State.readObject (s : State) (m : Member) (va n align : Nat) : Except Stop Nat × State :=
  let addr := BitVec.ofNat 64 va
  if 2 ^ 56 ≤ va then (.error (.fault Code.addrForm addr), s)
  else if va % align ≠ 0 then (.error (.fault Code.misalign addr), s)
  else match s.resolve m.wid va .read with
    | (.error x, t) => (.error x, t)
    | (.ok a, t) => t.plainValue m.wid a va n

/-- One operand of a group: what a stop at it makes of the instruction, each executing thread taking the cause. -/
def Env.stopAll (e : Env) (s t : State) (x : Stop) : Effect :=
  (settle s t (e.exec.map fun m => (m, x))).getD (.hold t)

/-! ### Races (R358 to R360) -/

/-- R359: the race checks of an access by a thread. -/
def State.raceStop (s : State) (m : Member) (t : Target) (va n : Nat) (write : Bool) : Option Stop × List (Member × RaceReport) × State :=
  if !t.scratch then (none, [], s)
  else
    let (rs, u) := s.raceAccess m.wid t.addr n write
    (if !rs.isEmpty && s.recField m.wid 485 485 == 1 then some (.fault Code.race (BitVec.ofNat 64 va)) else none, rs.map fun r => (m, r), u)

/-- R360: the records of an instruction's reports. -/
def State.recordRaces (s : State) (l : List (Member × RaceReport)) : State := l.foldl (fun t (m, r) => t.recordRace m.wid r) s

/-- R312, R360: what the threads' stops make of an instruction that reports races. The reports stand when the instruction
goes on or traps for them. -/
def settleRaced (s t : State) (l : List (Member × Stop)) (reports : List (Member × RaceReport)) : Option Effect :=
  match settle s t l with
  | some (.fault causes info) =>
    if (worst causes).any fun c => c.2.code == Code.race || c.2.code == Code.dataErr || c.2.code == Code.keyGone then
      some (.faultAt (s.recordRaces reports) causes info)
    else some (.fault causes info)
  | o => o

end Sys2Proof.Machine
end

