-- ==== Sys2Proof/Machine/Deliver.lean ====
section
/-! DEFINITION. How outstanding loads and returning atomics complete (R17, R200, R204, R213, R221, R331), and the requests of
loads (R235). -/

namespace Sys2Proof.Machine

open Sys2Proof

/-! ### Values -/

def Dest.scratch (d : Dest) : Bool := decide (scratchBase ≤ d.va.toNat)

/-- The value of a destination: found at once, or in the line its warp's request was served with. -/
def State.destValue (s : State) (op : Nat) (d : Dest) : Option (BitVec 128) :=
  match d.val with
  | some v => some v
  | none =>
    if d.scratch then none
    else (s.mem.reqs.find? fun (_, q) => q.op == op && q.wid == d.wid && q.line == d.pa / 128 && decide (q.stage = .served)).map
      fun (_, q) => BitVec.ofNat 128 (lineRead q.data (d.pa % 128) d.size)

/-- R220: a narrow value extended into its register. -/
def Dest.extend (d : Dest) (v : BitVec 128) : Nat :=
  match d.size, d.sext with
  | 1, true => ((v.extractLsb' 0 8).signExtend 32).toNat
  | 2, true => ((v.extractLsb' 0 16).signExtend 32).toNat
  | n, _ => v.toNat % 256 ^ n

/-- R109: a result is written unless its thread has exited. -/
def State.writeDest (s : State) (d : Dest) (v : BitVec 128) : State :=
  if s.discards ⟨d.wid, d.lane⟩ then s else s.setRegs ⟨d.wid, d.lane⟩ d.reg (d.extend v) (regsOfSize d.size)

def State.modOp (s : State) (op : Nat) (f : Op → Op) : State := { s with mem := { s.mem with ops := Tab.modify s.mem.ops op f } }

/-- An operation without destinations left, and its requests, are gone. -/
def State.sweepOp (s : State) (op : Nat) : State :=
  match Tab.get? s.mem.ops op with
  | some o =>
    if o.dests.isEmpty then
      { s with mem := { s.mem with ops := Tab.del s.mem.ops op, reqs := s.mem.reqs.filter fun (_, q) => q.op != op } }
    else s
  | none => s

/-- R17, R204: the operation is complete for a warp: its registers are written and its flag falls. -/
def State.completeFor (s : State) (op wid : Nat) (o : Op) : State :=
  let s1 := (o.dests.filter (·.wid == wid)).foldl (fun t d => match s.destValue op d with | some v => t.writeDest d v | none => t) s
  let s2 := s1.countDown (o.flags.filter (·.1 == wid))
  (s2.modOp op fun o => { o with dests := o.dests.filter (·.wid != wid), flags := o.flags.filter (·.1 != wid) }).sweepOp op

/-- The warps of an operation. -/
def Op.warps (o : Op) : List Nat := distinct (o.dests.map (·.wid))

/-- The operation has every value of a warp, and the warp has not deferred it. -/
def State.completes (s : State) (op wid : Nat) (o : Op) : Bool :=
  (o.dests.all fun d => d.wid != wid || (s.destValue op d).isSome) &&
  !(s.warp? wid).any fun w => w.defers op

def State.deliver (s : State) (op : Nat) : State :=
  match Tab.get? s.mem.ops op with
  | none => s
  | some o => (o.warps.filter fun w => s.completes op w o).foldl (fun t w => t.completeFor op w o) s

/-- LOAD_RETURN, R200: the destinations are written, and the flag falls. -/
def execLoadReturn (op : Nat) (s : State) : Out :=
  match Tab.get? s.mem.ops op with
  | some o => match o.kind with | .load _ => .next (s.deliver op) | _ => .next s
  | none => .next s

/-- ATOMIC_RETURN, R221: the old values are written, and the flag falls. -/
def execAtomicReturn (op : Nat) (s : State) : Out :=
  match Tab.get? s.mem.ops op with
  | some o => match o.kind with | .atomic => .next (s.deliver op) | _ => .next s
  | none => .next s

/-! ### Loads that meet an error (R331) -/

/-- R331: a thread takes a cause at its first instruction not yet issued, once the wait it stands in has ended. -/
def Thread.owes (t : Thread) (c : LaneCause) : Thread := { t with owed := some (t.owed.getD c) }

/-- R331: some destinations of a warp are not written: each of its live threads takes the cause at its first instruction not yet
issued; at TRET when the warp is about to enter a handler. -/
def State.failWarp (s : State) (wid : Nat) (w : Warp) (mine : List Dest) (code : BitVec 16) : State :=
  let mine := mine.filter fun d => !s.discards ⟨wid, d.lane⟩
  if w.trap.isSome then
    mine.foldl (fun t d => t.modThread ⟨wid, d.lane⟩ fun x => { x with pdaddr := d.va.extractLsb' 0 56 }) s
  else
    let (ready, later) := mine.partition fun d => (s.thread? ⟨wid, d.lane⟩).any fun t => decide (t.status = .running)
    let s1 := later.foldl (fun t d => t.modThread ⟨wid, d.lane⟩ fun x => x.owes ⟨code, d.va⟩) s
    if ready.isEmpty then s1
    else
      let members : List Member := ready.map fun d => ⟨wid, d.lane⟩
      let held := match (s.quarter w.quarterOf).slot with | some g => if g.members.any members.contains then g.members else [] | none => []
      let all := held ++ members.filter fun m => !held.contains m
      s1.raise w.quarterOf all (ready.map fun d => (⟨wid, d.lane⟩, ⟨code, d.va⟩)) 0

/-- R331: the load's end for destinations that meet an error: their flags fall, and their threads take the cause. -/
def State.failDests (s : State) (op : Nat) (o : Op) (bad : List Dest) (code : BitVec 16) : State :=
  let rest := o.dests.filter fun d => !bad.contains d
  let gone := (distinct (bad.map (·.wid))).filter fun w => rest.all fun d => d.wid != w
  let s1 := s.countDown (o.flags.filter fun f => gone.contains f.1)
  let s2 := (s1.modOp op fun o => { o with dests := rest, flags := o.flags.filter fun f => !gone.contains f.1 }).sweepOp op
  (distinct (bad.map (·.wid))).foldl (fun t wid => match t.warp? wid with
    | none => t
    | some w => t.failWarp wid w (bad.filter (·.wid == wid)) code) s2

/-- R174, R331: an OBLD meets an error at an address: nothing of it is written. -/
def State.failObld (s : State) (op : Nat) (o : Op) (va : Nat) (code : BitVec 16) : State :=
  let o' := { o with dests := o.dests.map fun d => { d with va := BitVec.ofNat 64 va } }
  (s.modOp op fun _ => o').failDests op o' o'.dests code

/-- R331, R384: requests of an outstanding load or atomic meet an error: what they would have brought is not written, and the threads that
await it take the cause. -/
def State.failAccess (s : State) (op : Nat) (load : Nat → LineReq → Bool) (atom : Nat → HomeReq → Bool) (code : BitVec 16) : State :=
  match Tab.get? s.mem.ops op with
  | none => s
  | some o =>
    let loads := s.mem.reqs.filter fun (k, q) => q.op == op && load k q
    let atoms := s.mem.homeReqs.filter fun (k, h) => h.op == some op && atom k h
    let bad : Dest → Bool := fun d =>
      match o.kind with
      | .obld .. => !loads.isEmpty
      | .load _ => !d.scratch && loads.any fun (_, q) => q.wid == d.wid && q.line == d.pa / 128
      | .atomic => !d.scratch && atoms.any fun (_, h) => h.line == d.pa / 128
    let dests := o.dests.filter bad
    if dests.isEmpty then s
    else match o.kind, loads with
    | .obld .., (_, q) :: _ => s.failObld op o q.va code
    | _, _ =>
      let mem := { s.mem with reqs := s.mem.reqs.filter fun (k, _) => !(loads.any fun x => x.1 == k),
                              homeReqs := s.mem.homeReqs.filter fun (k, _) => !(atoms.any fun x => x.1 == k) }
      ({ s with mem := mem } : State).failDests op o dests code

/-- DATAERR_LOAD, R331: an uncorrectable error meets an outstanding load or atomic at the home. -/
def execDataerrLoad (op : Nat) (s : State) : Out :=
  .next (s.failAccess op (fun _ q => decide (q.stage = .home ∨ q.stage = .remote ∨ q.stage = .sent) && s.lineBad q.line)
    (fun _ h => s.lineBad h.line) Code.dataErr)

/-! ### Loads on absent lines (R204, R213) -/

/-- The first source scratchpad line of an OBLD. -/
def Op.firstSource (o : Op) : Nat := match o.dests with | d :: _ => d.pa / 128 | [] => 0

/-- R174: the absent source lines of an OBLD are present. -/
def State.deliverObld (s : State) (op : Nat) (o : Op) (consume : Bool) : State :=
  let at_ (l : Nat) : Nat := l - o.firstSource
  let va (l : Nat) : Nat := (match o.dests with | d :: _ => d.va.toNat / 128 * 128 | [] => 0) + 128 * at_ l
  match o.lines.find? fun l => (s.scratchLine l).poison || decide ((s.scratchLine l).count = .dropped) with
  | some l => s.failObld op o (va l) (if (s.scratchLine l).count = .dropped then Code.overRead else Code.dataErr)
  | none =>
    let image := o.lines.foldl (fun t l => Tab.put t (at_ l) (s.scratchLine l).data) o.image
    let s1 := s.modOp op fun o => { o with image := image, lines := [] }
    if consume then o.lines.foldl State.consumeScratch s1 else s1

/-- ABSENT_LINE_DELIVERY, R204: every line that the load reads is present. A line that has been dropped meanwhile, or that an
aborted copy poisoned, gives its readers no value (R213, R331). -/
def execAbsentLineDelivery (op : Nat) (s : State) : Out :=
  match Tab.get? s.mem.ops op with
  | none => .next s
  | some o =>
    match o.kind with
    | .load consume =>
      if o.lines.isEmpty || o.lines.any (fun l => !(s.scratchLine l).present) || o.warps.any (fun w => (s.warp? w).any fun x => x.defers op) then .next s
      else
        let at_ : Dest → Nat := fun d => d.pa / 128
        let waits := o.dests.filter fun d => d.scratch && d.val.isNone
        let dropped := waits.filter fun d => decide ((s.scratchLine (at_ d)).count = .dropped)
        let poisoned := waits.filter fun d => !dropped.contains d && (s.scratchLine (at_ d)).poison
        let fill (d : Dest) : Dest :=
          if d.scratch && d.val.isNone then
            { d with val := some (BitVec.ofNat 128 (lineRead (s.scratchLine (at_ d)).data (d.pa % 128) d.size)) } else d
        let s1 := s.modOp op fun o => { o with dests := o.dests.map fill, lines := [] }
        let taken := o.lines.filter fun l => decide ((s.scratchLine l).count ≠ .dropped)
        let s2 := if consume then taken.foldl State.consumeScratch s1 else s1
        let fail (t : State) (l : List Dest) (c : BitVec 16) : State :=
          if l.isEmpty then t else match Tab.get? t.mem.ops op with | some o => t.failDests op o (l.map fill) c | none => t
        .next (fail (fail s2 dropped Code.overRead) poisoned Code.dataErr)
    | .obld _ _ _ consume =>
      if o.lines.isEmpty || o.lines.any (fun l => !(s.scratchLine l).present) then .next s
      else .next (s.deliverObld op o consume)
    | .atomic => .next s

/-! ### Requests (R235) -/

/-- R341: which row of R200 and R380 served a request at a home is free among those it may be. -/
def State.servingPoint (s : State) (q : LineReq) : Nat :=
  if q.stage = .l2 then 4
  else if isHost (q.line * 128) then 10
  else
    let slice := if homeOf q.line = dieOf q.core then 4 else 5
    let deep := if 2 ^ 51 ≤ q.line * 128 then 8 else 7
    ([slice, 6, deep][Config.choice s.turn % 3]?).getD slice

/-- R341: the records of a sampled load once it is served beyond the core. -/
def State.recordServed (s t : State) (q : LineReq) : State :=
  if !q.sampled then t
  else
    let line := q.va / 128
    let t1 := if q.stage = .l1 then t else t.recordWarp q.wid 0x05 (line + place 49 (s.servingPoint q))
    match q.stage, q.held with
    | .home, some w =>
      if (s.home q.line).wts = w then t1.recordWarp q.wid 0x06 (line + place 49 (t.home q.line).cls) else t1
    | _, _ => t1

/-- A request that no operation and no command waits for is gone once it is served. -/
def State.dropOrphan (s : State) (r : Nat) : State :=
  match Tab.get? s.mem.reqs r with
  | some q => if q.stage.over && q.keep.isNone && (Tab.get? s.mem.ops q.op).isNone then
      { s with mem := { s.mem with reqs := Tab.del s.mem.reqs r } } else s
  | none => s

/-- LEASED_LOAD_REQUEST, R235. -/
def execLeasedLoadRequest (req : Nat) (s : State) : Out :=
  let t := s.moveRequest req
  match Tab.get? s.mem.reqs req, Tab.get? t.mem.reqs req with
  | some q, some q' =>
    .next ((if q.stage ≠ .served ∧ q'.stage = .served then s.recordServed t q else t).dropOrphan req)
  | _, _ => .next t

end Sys2Proof.Machine
end

