-- ==== Sys2Proof/Machine/LoadStore.lean ====
section
/-! DEFINITION. Loads and stores (R201 to R205, R208, R209, R219, R220). -/

namespace Sys2Proof.Machine

open Sys2Proof

/-- R67: the bytes of an access. -/
def sizeOf (f : XM) : Nat := 2 ^ f.size.toNat

/-- The registers of a field that an access of so many bytes fills. -/
def fieldRegs (b : BitVec 8) (size : Nat) : Nat × Nat := (b.toNat, regsOfSize size)

def shapeMem (len : Nat) (f : XM) (own : Bool) : Shape :=
  { shapeXM f [fieldRegs f.d (sizeOf f), if own then r1 f.a else r2 f.a] with len := len }

/-! ### Loads -/

/-- R213, R220, R360: the checks of one thread's load, and the races it reports. -/
def Env.loadSpot (e : Env) (f : XM) (own : Bool) (m : Member) (s : State) : (Except Stop Spot × List (Member × RaceReport)) × State :=
  let n := sizeOf f
  let va := s.addressOf own m f.a f.c n
  match s.checkAccess e m own va n true false with
  | (.error x, t) => ((.error x, []), t)
  | (.ok a, t) =>
    match t.lineStop a false va with
    | some x => ((.error x, []), t)
    | none =>
      let (stop, rs, u) := t.raceStop m a va n false
      match stop, u.dataStop (s.ctxOf m.wid) a va with
      | some x, _ => ((.error x, rs), u)
      | none, some x => ((.error x, rs), u)
      | none, none => ((.ok ⟨m, va, a⟩, rs), u)

/-- The accesses of a group, the stops, the reports, and the state that the attempts left. -/
structure Attempt where
  spots : List Spot
  stops : List (Member × Stop)
  reports : List (Member × RaceReport)
  t : State
  deriving DecidableEq, Repr

def Env.attempt (e : Env) (s : State) (f : Member → State → (Except Stop Spot × List (Member × RaceReport)) × State) : Attempt :=
  e.exec.foldl (fun a m => match f m a.t with
    | ((.ok x, rs), u) => ⟨a.spots ++ [x], a.stops, a.reports ++ rs, u⟩
    | ((.error x, rs), u) => ⟨a.spots, a.stops ++ [(m, x)], a.reports ++ rs, u⟩) ⟨[], [], [], s⟩

/-- The value a load finds at once: in a present scratchpad line, or a counted global line. -/
def State.readySpot (s : State) (x : Spot) (n : Nat) : Option (BitVec 128) :=
  if x.t.scratch then
    let l := s.scratchLine x.t.line
    if l.present then some (BitVec.ofNat 128 (lineRead l.data x.t.off n)) else none
  else (Tab.get? s.mem.counted x.t.line).map fun c => BitVec.ofNat 128 (lineRead c.data x.t.off n)

/-- R235: one request for each warp and global line that no count holds. -/
def loadRequests (s : State) (e : Env) (op : Nat) (kind : LoadKind) (consume sampled : Bool) (n : Nat) (l : List Spot) : List LineReq :=
  (warpsOf e.exec).flatMap fun wid =>
    let own := l.filter (·.m.wid == wid)
    ((globalLinesOf own).filter fun line => (Tab.get? s.mem.counted line).isNone).map fun line =>
      let va := match own.find? fun x => !x.t.scratch && x.t.line == line with | some x => x.va | none => 0
      let mask := own.foldl (fun a x => if !x.t.scratch && x.t.line == line then a ||| byteMask x.t.off n else a) 0
      ⟨op, line, 0, kind, s.ctxOf wid, wid, e.core, consume, mask, .l1, none, 0, sampled, va, none⟩

/-- Requests numbered from a count on. -/
def numbered (start : Nat) : List LineReq → List (Nat × LineReq)
  | [] => []
  | q :: rest => (start, q) :: numbered (start + 1) rest

/-- R342: a load of a core is counted, and may be sampled. -/
def State.sampleLoad (s : State) (e : Env) : Bool × State :=
  let rsamp := s.recField e.group.seed 483 480
  let r := s.recorder e.core
  if rsamp = 15 then (false, s) else (sampled rsamp r.loads, s.putRecorder e.core { r with loads := r.loads + 1 })

/-- R71, R204, R208, R213: a load that has passed its checks is outstanding. -/
def State.beginLoad (s : State) (e : Env) (f : XM) (kind : LoadKind) (consume : Bool) (l : List Spot) : State :=
  let n := sizeOf f
  let wids := warpsOf e.exec
  let flag := e.flag f.fs
  let (sampled, s0) := s.sampleLoad e
  let id := s.fresh
  let dests : List Dest := l.map fun x => ⟨x.m.wid, x.m.lane, f.d.toNat, n, f.var.getLsbD 3, BitVec.ofNat 64 x.va, x.t.addr, s.readySpot x n⟩
  let scratch := scratchLinesOf l
  let present := scratch.filter fun k => (s.scratchLine k).present
  let absent := scratch.filter fun k => !(s.scratchLine k).present
  let counted := (globalLinesOf l).filter fun k => (Tab.get? s.mem.counted k).isSome
  let s1 := if consume then counted.foldl State.consumeGlobal (present.foldl State.consumeScratch s0) else s0
  let reqs := numbered (id + 1) (loadRequests s e id kind consume sampled n l)
  let op : Op := ⟨.load consume, e.core, BitVec.ofNat 56 e.pc, countsOf wids flag, dests, absent, []⟩
  let mem := { s1.mem with ops := Tab.put s1.mem.ops id op, reqs := reqs.foldl (fun t q => Tab.put t q.1 q.2) s1.mem.reqs }
  ({ s1 with mem := mem, fresh := id + 1 + reqs.length } : State).countUp wids flag

/-- R315: the loads of a warp that wait on absent lines, deferred ones included. -/
def State.absentLoads (s : State) (wid : Nat) : Nat :=
  ((s.opsOf wid).filter fun (_, o) => match o.kind with | .load _ => s.opAbsent o | _ => false).length

/-- R219, R220. -/
def opLoad (len : Nat) (f : XM) (own : Bool) (kind : LoadKind) (s : State) : State :=
  s.issue { shapeMem len f own with flag := some f.fs } fun e s =>
    let a := e.attempt s (e.loadSpot f own)
    match settleRaced s a.t a.stops a.reports with
    | some x => x
    | none =>
      let absent := (scratchLinesOf a.spots).any fun k => !(s.scratchLine k).present
      let full := (warpsOf e.exec).filter fun w => decide (8 ≤ s.absentLoads w)
      match absent, full with
      | true, w :: _ => .wait (.retry (.absentRoom w)) false s
      | _, _ => .done ((a.t.recordRaces a.reports).beginLoad e f kind (f.var.getLsbD 0) a.spots)

/-- R208: the kind a load names. -/
def loadKind (f : XM) : LoadKind := match (f.var.extractLsb' 1 2).toNat with | 0 => .leased | 1 => .stale | _ => .fresh

def opLd (len : Nat) (f : XM) (s : State) : State := opLoad len f false (loadKind f) s
def opLdro (len : Nat) (f : XM) (s : State) : State := opLoad len f false .readOnly s
def opLds (len : Nat) (f : XM) (s : State) : State := opLoad len f true .leased s

/-! ### Stores -/

/-- R201: the bytes that a group writes to one line, the higher lane last, and the warps that write it. -/
def composeLine (scratch : Bool) (line : Nat) (l : List (Spot × Nat)) (n : Nat) : Line × LineMask × List Nat :=
  let own := l.filter fun x => x.1.t.scratch == scratch && x.1.t.line == line
  let (d, k) := own.foldl (fun (d, k) x =>
    (mergeLine d (lineValue x.1.t.off n x.2) (byteMask x.1.t.off n), k ||| byteMask x.1.t.off n)) ((0 : Line), (0 : LineMask))
  (d, k, distinct (own.map (·.1.m.wid)))

/-- R201, R202: the group's bytes of one line are stored. -/
def State.storeGroupLine (s : State) (scratch : Bool) (line : Nat) (l : List (Spot × Nat)) (n : Nat) : State :=
  let (d, k, wids) := composeLine scratch line l n
  wids.foldl (fun t w => t.storeLine w ⟨scratch, line * 128⟩ d k) s

def State.storeGroup (s : State) (l : List (Spot × Nat)) (n : Nat) : State :=
  let t := (scratchLinesOf (l.map (·.1))).foldl (fun t k => t.storeGroupLine true k l n) s
  (globalLinesOf (l.map (·.1))).foldl (fun t k => t.storeGroupLine false k l n) t

/-- R212: the lines of a counted fill, with the region and count each takes. -/
structure Fill where
  t : Target
  va : Nat
  region : Nat
  count : Nat
  data : Line
  deriving DecidableEq, Repr

/-- R212: a line that the group's threads write whole, in a declared region. -/
def State.fillOf (s : State) (ctx : Nat) (scratch : Bool) (line : Nat) (l : List (Spot × Nat)) (n : Nat) : Option Fill :=
  let (d, k, _) := composeLine scratch line l n
  match l.find? fun x => x.1.t.scratch == scratch && x.1.t.line == line with
  | none => none
  | some x =>
    match s.regionAt ctx (s.position (s.blockOf x.1.m.wid) x.1.va) with
    | some (i, r) => if k = BitVec.allOnes 128 then some ⟨⟨scratch, line * 128⟩, x.1.va / 128 * 128, i, r.count, d⟩ else none
    | none => none

/-- The fills of an instruction; none when some line breaks the rule. -/
def State.fillsOf (s : State) (ctx : Nat) (l : List (Spot × Nat)) (n : Nat) : Option (List Fill) :=
  let lines := (scratchLinesOf (l.map (·.1))).map (true, ·) ++ (globalLinesOf (l.map (·.1))).map (false, ·)
  lines.foldl (fun r (sc, k) => match r, s.fillOf ctx sc k l n with | some fs, some f => some (fs ++ [f]) | _, _ => none) (some [])

/-- R212: the counted fills of an instruction; none while one must wait. -/
def State.fillAll (s : State) (ctx core wid : Nat) (l : List Fill) : Option State × State :=
  match readyAll (fun (t : State) x => t.readyFill core ((l.filter (!·.t.scratch)).map (·.t.line)) x) s (l.map (·.t)) with
  | (some t, _) =>
    let u := l.foldl (fun t f => t.fillCounted ctx core (some wid) f.t f.va f.region f.count f.data) t
    (some u, u)
  | r => r

/-- R212, R220, R360: the checks of one thread's store. A counted fill meets dropped lines and checks no race; its key is checked after
its lines (R312). -/
def Env.storeSpot (e : Env) (f : XM) (own : Bool) (m : Member) (s : State) : (Except Stop Spot × List (Member × RaceReport)) × State :=
  let n := sizeOf f
  let va := s.addressOf own m f.a f.c n
  let fill := f.var.getLsbD 0
  match s.checkAccess e m own va n false true with
  | (.error x, t) => ((.error x, []), t)
  | (.ok a, t) =>
    match if fill then none else t.lineStop a false va with
    | some x => ((.error x, []), t)
    | none =>
      let (stop, rs, u) := if fill then (none, [], t) else t.raceStop m a va n true
      match stop, if fill then none else u.dataStop (s.ctxOf m.wid) a va with
      | some x, _ => ((.error x, rs), u)
      | none, some x => ((.error x, rs), u)
      | none, none => ((.ok ⟨m, va, a⟩, rs), u)

/-- R384: the threads of a counted fill whose key slot is gone; they rank after the rule of the whole line (R312). -/
def State.fillStops (s : State) (l : List Spot) : List (Member × Stop) :=
  l.filterMap fun x => if x.t.scratch then none else (s.dataStop (s.ctxOf x.m.wid) x.t x.va).map fun c => (x.m, c)

/-- R212, R220: a counted fill whose accesses have passed the checks of addresses. -/
def Env.fill (e : Env) (s t : State) (l : List (Spot × Nat)) (n : Nat) : Effect :=
  let ctx := s.ctxOfGroup e.group
  match s.fillsOf ctx l n, settle s t (s.fillStops (l.map (·.1))) with
  | none, _ => .fault (l.map fun x => (x.1.m, ⟨Code.crState, BitVec.ofNat 64 x.1.va⟩)) 0
  | some _, some x => x
  | some fills, none => match t.fillAll ctx e.core e.group.seed fills with | (some u, _) => .done u | (none, u) => .hold u

/-- R219, R220. -/
def opStore (len : Nat) (f : XM) (own : Bool) (s : State) : State :=
  s.issue (shapeMem len f own) fun e s =>
    let n := sizeOf f
    let a := e.attempt s (e.storeSpot f own)
    match settleRaced s a.t a.stops a.reports with
    | some x => x
    | none =>
      let l := a.spots.map fun x => (x, s.regs x.m f.d.toNat (regsOfSize n))
      if e.exec.any s.threadAwaits then .hold s
      else if f.var.getLsbD 0 then e.fill s a.t l n
      else if !s.canStore e.core (globalLinesOf a.spots) then .hold (a.t.evictDirty e.core (globalLinesOf a.spots))
      else .done ((a.t.recordRaces a.reports).storeGroup l n)

def opSt (len : Nat) (f : XM) (s : State) : State := opStore len f false s
def opSts (len : Nat) (f : XM) (s : State) : State := opStore len f true s

/-! ### Meanings -/

/-- LD, R219. -/
def execLd (m : Bool) (b : BitVec 7) (a : BitVec 7) (d : BitVec 7) (s : State) : Out :=
  .next (opLd 4 (s.mem32 m b a d) s)

/-- LD_W, R219. -/
def execLdW (f : XM) (s : State) : Out :=
  .next (opLd 8 f s)

/-- ST, R219. -/
def execSt (b : BitVec 7) (a : BitVec 7) (d : BitVec 7) (s : State) : Out :=
  .next (opSt 4 (s.mem32 false b a d) s)

/-- ST_W, R219. -/
def execStW (f : XM) (s : State) : Out :=
  .next (opSt 8 f s)

/-- LDRO, R209. -/
def execLdro (m : Bool) (b : BitVec 7) (a : BitVec 7) (d : BitVec 7) (s : State) : Out :=
  .next (opLdro 4 (s.mem32 m b a d) s)

/-- LDRO_W, R209. -/
def execLdroW (f : XM) (s : State) : Out :=
  .next (opLdro 8 f s)

/-- LDS, R219. -/
def execLds (m : Bool) (b : BitVec 7) (a : BitVec 7) (d : BitVec 7) (s : State) : Out :=
  .next (opLds 4 (s.mem32 m b a d) s)

/-- LDS_W, R219. -/
def execLdsW (f : XM) (s : State) : Out :=
  .next (opLds 8 f s)

/-- STS, R219. -/
def execSts (b : BitVec 7) (a : BitVec 7) (d : BitVec 7) (s : State) : Out :=
  .next (opSts 4 (s.mem32 false b a d) s)

/-- STS_W, R219. -/
def execStsW (f : XM) (s : State) : Out :=
  .next (opSts 8 f s)

end Sys2Proof.Machine
end

