-- ==== Sys2Proof/Machine/Atomics.lean ====
section
/-! DEFINITION. Atomics (R216 to R218, R221, R241): their operations, and where each is performed. -/

namespace Sys2Proof.Machine

open Sys2Proof

/-! ### The operations (R216) -/

/-- R216: the new value of a location of `size` bytes; under .cmpx `cmp` is the comparison and `b` the new value. -/
def atomicNew (var size : Nat) (m b cmp : BitVec 64) : BitVec 64 :=
  let w := 8 * size
  let cut (x : Nat) : BitVec 64 := BitVec.ofNat 64 (x % 2 ^ w)
  let sg (x : BitVec 64) : Int := if x.toNat % 2 ^ w < 2 ^ (w - 1) then x.toNat % 2 ^ w else (x.toNat % 2 ^ w : Int) - 2 ^ w
  let un (x : BitVec 64) : Nat := x.toNat % 2 ^ w
  match var with
  | 0 => cut (m + b).toNat
  | 1 => cut (m - b).toNat
  | 2 => cut (if sg b < sg m then b else m).toNat
  | 3 => cut (if sg m < sg b then b else m).toNat
  | 4 => cut (if un b < un m then b else m).toNat
  | 5 => cut (if un m < un b then b else m).toNat
  | 6 => cut (m &&& b).toNat
  | 7 => cut (m ||| b).toNat
  | 8 => cut (m ^^^ b).toNat
  | 9 => cut b.toNat
  | 10 => if un m = un cmp then cut b.toNat else cut m.toNat
  | 11 => if un b ≤ un m then 0 else cut (m.toNat + 1)
  | _ => cut (fAdd fp32 {} (un m) (un b))

/-- R201, R216: the lanes' operations on one line in ascending order; answers the line and each lane's old value. -/
def applyAtomics (d : Line) (lanes : List AtomLane) : Line × List (BitVec 64) :=
  lanes.foldl (fun (d, olds) l =>
    let off := l.pa % 128
    let m : BitVec 64 := BitVec.ofNat 64 (lineRead d off l.size)
    let v := atomicNew l.var l.size m l.b l.cmp
    (mergeLine d (lineValue off l.size v.toNat) (byteMask off l.size), olds ++ [m])) (d, [])

/-- R216: the bytes that the lanes write. -/
def atomicMask (lanes : List AtomLane) : LineMask := lanes.foldl (fun k l => k ||| byteMask (l.pa % 128) l.size) 0

/-- The old values reach the destinations of a returning atomic. -/
def State.returnOlds (s : State) (op : Option Nat) (lanes : List AtomLane) (olds : List (BitVec 64)) : State :=
  match op with
  | none => s
  | some i =>
    s.modOp i fun o => { o with dests := o.dests.map fun d =>
      match (lanes.zip olds).find? fun x => x.1.wid == d.wid && x.1.lane == d.lane && x.1.pa == d.pa with
      | some (_, v) => { d with val := some (v.zeroExtend 128) }
      | none => d }

/-! ### Execution points (R217) -/

/-- R217: the point below the home at which an atomic of a core executes; none for the home. A slice that may hold no dirty bytes of the line
(R401) leaves it to the remote home (DEDUCED, log entry 117). -/
def State.atomicPoint (s : State) (ctx core scope line : Nat) : Option Nat :=
  let cluster : Option Nat :=
    if s.fused (clusterOf core) then some (fusedPoint (clusterOf core))
    else if homeOf line = dieOf core ∨ isRemote (line * 128) then none
    else some (l2Point (dieOf core))
  match scope with
  | 1 => some (s.corePoint core)
  | 2 => cluster
  | 3 | 4 => none
  | k => if s.groupAtCluster ctx core (k - 32) then cluster else none

/-- The warps of an atomic. -/
def HomeReq.warps (h : HomeReq) : List Nat := distinct (h.lanes.map (·.wid))

/-- The latest pts of the warps of an atomic; that of an addition which no warp makes is the clock of its gate (R365). -/
def State.atomicPts (s : State) (h : HomeReq) : LTime :=
  match h.warps.filter fun w => (s.warp? w).isSome with
  | [] => s.gateClock h.line
  | w :: rest => rest.foldl (fun t x => maxs t (s.pts x)) (s.pts w)

/-- R233: the warps of an atomic at a time after which each goes on; they observe the value returned, if it returns one. -/
def State.tellAtomic (s : State) (h : HomeReq) (w : Option LTime) (old : LTime) : State :=
  h.warps.foldl (fun t x => t.modWarp x fun y =>
    { y with pts := w.getD y.pts, ots := if h.op.isSome then maxs y.ots old else y.ots }) s

def State.dropHomeReq (s : State) (r : Nat) : State := { s with mem := { s.mem with homeReqs := Tab.del s.mem.homeReqs r } }

/-- R237, R217: an atomic performed at the home, after the dirty bytes of its core and any lease of a die have come home. None
while the home is not ready. -/
def State.atomicHome (s : State) (r : Nat) (h : HomeReq) : Option State × State :=
  match s.flushLine h.core h.line with
  | (none, t) => (none, t)
  | (some t, _) =>
    let (ok, t1) := t.openHome h.line h.ctx (atomicMask h.lanes) true true none true none
    if !ok then (none, t1)
    else
      let old := (t1.home h.line).wts
      let (d, olds) := applyAtomics (t1.homeView h.line (t1.keyTag h.ctx)) h.lanes
      let (w, t2) := (t1.carryOut h.core h.line).homeStore h.line (t1.atomicPts h)
      let t3 := t2.writeHome h.line (t2.keyTag h.ctx) h.ctx d (atomicMask h.lanes)
      let t4 := (t3.tellAtomic h (some w) old).raiseLaunches h.ctx w
      let u := ((t4.returnOlds h.op h.lanes olds).dropHomeReq r).carryBack h.core h.line
      (some u, u)

/-- R217: whether the copy at a point serves an atomic: it holds dirty bytes, or its lease covers the pts. -/
def pointServes (c : Copy) (pts : LTime) (mask : LineMask) : Bool := c.holds mask && (c.dirty != 0 || !precedes c.rts pts)

/-- R217: the three steps of an atomic at a point below the home. None while they cannot all be done. -/
def State.atomicAtPoint (s : State) (r : Nat) (h : HomeReq) (p : Nat) : Option State × State :=
  let pts := s.atomicPts h
  let mask := atomicMask h.lanes
  let l2 := decide (3000 ≤ p)
  -- R240: an L2 slice holds dirty bytes under the die-exclusive lease alone
  let (g, s0) := if l2 then s.grantDiex (dieOf h.core) h.line h.ctx else (some s, s)
  match g with
  | none => (none, s0)
  | some s1 =>
    match if l2 then s1.writeBack (s1.corePoint h.core) h.line none false else (some s1, s1) with
    | (none, t) => (none, t)
    | (some t, _) =>
      let serves := match t.copy? p h.line with | some c => pointServes c pts mask | none => false
      let q : LineReq := { LineReq.plain h.wid h.core h.ctx h.line mask with stage := if l2 then .l2 else .l1 }
      let (ready, t1) := if serves then (true, t) else match t.loadNow q 4 with | (some _, u) => (true, u) | (none, u) => (false, u)
      match ready, t1.copy? p h.line with
      | true, some c =>
        let (d, olds) := applyAtomics c.data h.lanes
        let t2 := t1.storeAt p h.line h.ctx pts d mask
        let w := if l2 then maxs pts (c.rts + 1) else pts
        let t3 := match l2, t2.copy? p h.line with
          | true, some c' => t2.putCopy p h.line { c' with wts := w, rts := w }
          | _, _ => t2
        let t4 := (t3.bump (pointClock p h.line) w).tellAtomic h none c.wts
        let u := (t4.returnOlds h.op h.lanes olds).dropHomeReq r
        (some u, u)
      | _, _ => (none, if l2 then t1 else t1.evictDirty h.core [h.line])

/-- R28, R401: an atomic at the home of a remote line leaves over Causk, once the writes of the line that went before it are acknowledged; it
is posted once. -/
def State.atomicRemote (s : State) (r : Nat) (h : HomeReq) : State :=
  match s.flushLine h.core h.line with
  | (none, t) => t
  | (some t, _) =>
    if t.remoteBusy h.line then t else
    let ops := h.lanes.map fun l => (l.pa % 128, l.size, l.var, l.b, l.cmp)
    let u := t.send (remotePkg h.line) (.atomRequest r t.sys.causkid.toNat h.ctx h.line ops (t.atomicPts h) (t.gateClock h.line))
    { u with mem := { u.mem with homeReqs := Tab.modify u.mem.homeReqs r fun x => { x with grant := .granted } } }

/-! ### The events of ownership requests (R237, R241) -/

/-- HOME_SLICE_ARBITRATION, R241: of the requests for a line, one is granted and the others are told to retry, with the home
clock. -/
def execHomeSliceArbitration (line : Nat) (s : State) : Out := .next (s.contend line none fun _ => false).2

/-- RETRY, R241: a request told to retry arrives again. -/
def execRetry (req : Nat) (s : State) : Out :=
  .next { s with mem := { s.mem with homeReqs := Tab.modify s.mem.homeReqs req fun h => if h.grant = .retry then { h with grant := .sent } else h } }

/-- HOME_STORE, R217, R237, R241: an atomic is performed at its execution point. A posted one whose line meets an error is
discarded (R331). -/
def execHomeStore (req : Nat) (s : State) : Out :=
  match Tab.get? s.mem.homeReqs req with
  | none => .next s
  | some h =>
    if s.earlierAtomic req h then .next s
    else match h.point with
      | some p => match s.atomicAtPoint req h p with
        | (some t, _) => .next t
        | (none, t) => .next (if h.op.isNone && s.lineBad h.line then s.dropHomeReq req else t)
      | none =>
        if s.lineBad h.line then .next (if h.op.isNone then s.dropHomeReq req else s)
        else if isRemote (h.line * 128) then .next (if h.grant = .sent then s.atomicRemote req h else s)
        else if h.grant = .granted then .next (s.atomicHome req h).2
        else .next s

/-! ### Issue (R221) -/

/-- Registers of the operand: a pair or quadruple for a comparison. -/
def atomicRegs (f : XM) : Nat × Nat :=
  let n := regsOfSize (sizeOf f)
  (f.b.toNat, if f.var = 10 then 2 * n else n)

def State.atomicOperands (s : State) (f : XM) (m : Member) : BitVec 64 × BitVec 64 :=
  let n := regsOfSize (sizeOf f)
  if f.var = 10 then (BitVec.ofNat 64 (s.regs m (f.b.toNat + n) n), BitVec.ofNat 64 (s.regs m f.b.toNat n))
  else (BitVec.ofNat 64 (s.regs m f.b.toNat n), 0)

/-- R213, R216, R220: the checks of one thread's atomic. -/
def Env.atomicSpot (e : Env) (f : XM) (own : Bool) (m : Member) (s : State) : (Except Stop Spot × List (Member × RaceReport)) × State :=
  let n := sizeOf f
  let va := s.addressOf own m f.a 0 n
  match s.checkAccess e m own va n true true with
  | (.error x, t) => ((.error x, []), t)
  | (.ok a, t) =>
    match t.lineStop a true va, t.dataStop (s.ctxOf m.wid) a va with
    | some x, _ => ((.error x, []), t)
    | none, some x => ((.error x, []), t)
    | none, none => ((.ok ⟨m, va, a⟩, []), t)

/-- One lane of an atomic. -/
def State.atomLane (s : State) (f : XM) (x : Spot) : AtomLane :=
  let (b, c) := s.atomicOperands f x.m
  ⟨x.m.wid, x.m.lane, x.t.addr, sizeOf f, f.var.toNat, b, c⟩

/-- R199, R205: the scratchpad lines of an atomic, performed at once; answers each lane's old value. -/
def State.atomicScratch (s : State) (lanes : List AtomLane) : List (AtomLane × BitVec 64) × State :=
  (distinct (lanes.map fun l => l.pa / 128)).foldl (fun (r, t) k =>
    let own := lanes.filter fun l => l.pa / 128 == k
    let line := t.scratchLine k
    let (d, olds) := applyAtomics line.data own
    (r ++ own.zip olds, t.putScratch k { line with data := d })) ([], s)

/-- R221, R241: the atomic's requests, one for each global line. -/
def State.sendAtomics (s : State) (e : Env) (op : Option Nat) (scope : Nat) (lanes : List AtomLane) : State :=
  let ctx := s.ctxOfGroup e.group
  (distinct (lanes.map fun l => l.pa / 128)).foldl (fun t line =>
    let h : HomeReq := ⟨t.atomicPoint ctx e.core scope line, op, line, ctx, e.group.seed, e.core, e.core, scope,
      lanes.filter fun l => l.pa / 128 == line, .sent⟩
    { t with mem := { t.mem with homeReqs := Tab.put t.mem.homeReqs t.fresh h }, fresh := t.fresh + 1 }) s

/-- R341: ATOMIC. -/
def State.recordAtomic (s : State) (e : Env) (f : XM) (l : List Spot) : State :=
  match l with
  | x :: _ => if f.scope = 3 ∨ f.scope = 4 then
      s.recordWarp e.group.seed 0x07 (x.va / 128 % 2 ^ 49 + place 49 f.scope.toNat + place 55 f.var.toNat) else s
  | [] => s

/-- ATOM, ATOMS and ATOMP; `returns` is false for the posted forms. -/
def opAtomic (f : XM) (own returns : Bool) (s : State) : State :=
  let d := if returns then [fieldRegs f.d (sizeOf f)] else []
  let sh := shapeXM f (d ++ [if own then r1 f.a else r2 f.a, atomicRegs f])
  s.issue { sh with flag := if returns then some f.fs else none } fun e s =>
    let a := e.attempt s (e.atomicSpot f own)
    match settleRaced s a.t a.stops a.reports with
    | some x => x
    | none =>
      if e.exec.any s.threadAwaits then .hold s
      else
        let wids := warpsOf e.exec
        let flag := e.flag f.fs
        let t := a.t.recordAtomic e f a.spots
        let lanes := a.spots.map fun x => (x, s.atomLane f x)
        let (olds, t1) := t.atomicScratch ((lanes.filter fun x => x.1.t.scratch).map (·.2))
        let global := (lanes.filter fun x => !x.1.t.scratch).map (·.2)
        if returns then
          let id := t1.fresh
          let dests : List Dest := lanes.map fun (x, l) =>
            ⟨x.m.wid, x.m.lane, f.d.toNat, sizeOf f, false, BitVec.ofNat 64 x.va, x.t.addr,
              if x.t.scratch then (olds.find? fun o => o.1 == l).map fun o => o.2.zeroExtend 128 else none⟩
          let op : Op := ⟨.atomic, e.core, BitVec.ofNat 56 e.pc, countsOf wids flag, dests, [], []⟩
          let t2 : State := { t1 with mem := { t1.mem with ops := Tab.put t1.mem.ops id op }, fresh := id + 1 }
          .done ((t2.countUp wids flag).sendAtomics e (some id) f.scope.toNat global)
        else .done (t1.sendAtomics e none f.scope.toNat global)

/-! ### Meanings -/

/-- ATOM, R221. -/
def execAtom (f : XM) (s : State) : Out := .next (opAtomic f false true s)

/-- ATOMS, R221: C[0] is .nr. -/
def execAtoms (f : XM) (s : State) : Out := .next (opAtomic f true (!f.c.getLsbD 0) s)

/-- ATOMP, R221. -/
def execAtomp (f : XM) (s : State) : Out := .next (opAtomic f false false s)


end Sys2Proof.Machine
end

