-- ==== Sys2Proof/Machine/EngineRead.lean ====
section
/-! DEFINITION. How an engine, or an MMAT, reads memory (R181, R242, R269): leased loads at an issue timestamp, made from the
die's L2 outward. -/

namespace Sys2Proof.Machine

open Sys2Proof

/-- What an engine's read of a line comes to. -/
inductive EngineRead where
  | data (d : Line) (wts : LTime)
  /-- the home is not ready, or a scratchpad line is absent -/
  | waits
  /-- R269 DATAERR, R384 -/
  | bad
  /-- R269 OVERREAD -/
  | dropped
  deriving DecidableEq, Repr

/-- R242: an engine's read of a line that no point below serves, at its home; `trains` is false for PREFB (R227). -/
def State.engineHome (s : State) (ctx core line : Nat) (ts : LTime) (engine : Option (Nat × Nat)) (held : Option LTime)
    (trains : Bool) : EngineRead × State :=
  if s.lineBad line then (.bad, s)
  else
    let p := l2Point (dieOf core)
    let (ok, s1) := s.openHome line ctx (BitVec.allOnes 128) false false (some (dieOf core)) false (some (engine.getD (0, 0)))
    if !ok then (.waits, s1)
    else
      let (wts, rts, s2) := (s1.tellHome p line).homeLoad line ctx ts false held trains
      let d := s2.homeView line (s2.keyTag ctx)
      let s3 := if homeOf line = dieOf core then s2 else s2.fill p line ctx d (s2.homeBytes line) wts rts
      (.data d wts, s3.hearHome p line)

/-- Who has ordered a remote line: a command, or none, and the timestamp of its reads. -/
def readOwner (engine : Option (Nat × Nat)) (ts : LTime) : (Nat × Nat) × LTime := (engine.getD (0, ts.toNat), ts)

/-- R242, R401: an engine's read of a remote line: a request leaves over Causk; its reply is kept for the command, which takes it once. -/
def State.engineRemote (s : State) (ctx core line : Nat) (ts : LTime) (engine : Option (Nat × Nat)) (held : Option LTime) :
    EngineRead × State :=
  let o := readOwner engine ts
  match s.mem.reqs.find? fun (_, q) => q.line == line && q.keep == some o with
  | some (r, q) =>
    let taken : State := { s with mem := { s.mem with reqs := Tab.del s.mem.reqs r } }
    match q.stage with
    | .served => (.data q.data (q.held.getD 0), taken)
    | .failed _ => (.bad, taken)
    | _ => (.waits, s)
  | none =>
    let q : LineReq := { LineReq.plain 0 core ctx line (BitVec.allOnes 128) with op := s.fresh, stage := .remote, held := held, keep := some o }
    (.waits, { s with mem := { s.mem with reqs := Tab.put s.mem.reqs s.fresh q }, fresh := s.fresh + 1 })

/-- The requests that a command has ordered go with it. -/
def State.dropKept (s : State) (owner : Nat × Nat) : State :=
  { s with mem := { s.mem with reqs := s.mem.reqs.filter fun (_, q) => (q.keep.map (·.1)) != some owner } }

/-- R242: an engine's read of a line. A die-exclusive lease of its own die serves it at the slice. -/
def State.engineLine (s : State) (ctx core line : Nat) (ts : LTime) (fresh : Bool) (engine : Option (Nat × Nat)) (trains : Bool) :
    EngineRead × State :=
  match Tab.get? s.mem.counted line with
  | some c => if c.count = 0 then (.dropped, s) else (.data c.data 0, s)
  | none =>
    if isRemote (line * 128) && s.lineBad line || !isHost (line * 128) && !isRemote (line * 128) && s.keyGone ctx then (.bad, s)
    else
      let p := l2Point (dieOf core)
      match s.copy? p line with
      | some c =>
        if (s.home line).dir = .diex (dieOf core) && c.full then
          let c' := { c with rts := maxs (maxs c.rts (c.wts + s.leaseLength ctx line (s.home line).cls false))
                                        (ts + s.leaseLength ctx line (s.home line).cls false) }
          (.data c.data c.wts, s.putCopy p line c')
        else if c.full && !precedes c.rts ts && !fresh then (.data c.data c.wts, s)
        else if isRemote (line * 128) then s.engineRemote ctx core line ts engine (if fresh then none else some c.wts)
        else s.engineHome ctx core line ts engine (if fresh then none else some c.wts) trains
      | none =>
        if isRemote (line * 128) then s.engineRemote ctx core line ts engine none
        else s.engineHome ctx core line ts engine none trains

/-- A scratchpad source waits on presence bits as a load does. -/
def State.engineScratch (s : State) (line : Nat) : EngineRead :=
  let l := s.scratchLine line
  if l.count = .dropped then .dropped
  else if !l.present then .waits
  else if l.poison then .bad
  else .data l.data 0

/-- A source line of a target, either window. -/
def State.engineSource (s : State) (ctx core : Nat) (t : Target) (ts : LTime) (fresh : Bool) (engine : Option (Nat × Nat)) :
    EngineRead × State :=
  if t.scratch then (s.engineScratch t.line, s) else s.engineLine ctx core t.line ts fresh engine true

/-- R23, R329: where an engine's access of a block's context goes; a scratchpad address was checked at issue. -/
def State.engineTarget (s : State) (ctx core blk va : Nat) (k : Access) : Except Xlat Target × State :=
  if scratchBase ≤ va then
    match s.scratchAt blk va with
    | some a => (.ok ⟨true, a⟩, s)
    | none => (.error (.fault Code.scratchRange), s)
  else
    match s.translate core ctx va k with
    | (.ok pa, t) => (.ok ⟨false, pa⟩, t)
    | (x, t) => (.error x, t)

end Sys2Proof.Machine
end

