-- ==== Sys2Proof/Machine/Control.lean ====
section
/-! DEFINITION. Control and sequencing (R29 to R31, R105 to R112). -/

namespace Sys2Proof.Machine

open Sys2Proof

/-! ### The return stack (R30, R31) -/

/-- R30: a return address pushed; a full hidden stack first spills its oldest entry. In a handler nothing spills (R317). -/
def State.push (s : State) (m : Member) (ra : VAddr) : Except Stop Unit × State :=
  match s.thread? m, s.warp? m.wid with
  | some t, some w =>
    if t.hidden.length < 16 then (.ok (), s.modThread m fun u => { u with hidden := ra :: u.hidden })
    else if w.level ≠ 0 ∨ 240 ≤ t.spill.toNat then (.error (.fault Code.callDepth 0), s)
    else
      let va := s.spillBase m + 8 * t.spill.toNat
      match s.storeVirtual m.wid va (lineValue (va % 128) 8 ((t.hidden.getLast?).getD 0).toNat) (byteMask (va % 128) 8) with
      | (.ok (), u) => (.ok (), u.modThread m fun x => { x with hidden := ra :: x.hidden.dropLast, spill := x.spill + 1 })
      | r => r
  | _, _ => (.ok (), s)

/-- R30, R31: a return address popped; an empty hidden stack first fills the most recently spilled entry. -/
def State.pop (s : State) (m : Member) : Except Stop (BitVec 64) × State :=
  match s.thread? m with
  | none => (.ok 0, s)
  | some t =>
    match t.hidden with
    | ra :: rest => (.ok (ra.zeroExtend 64), s.modThread m fun u => { u with hidden := rest })
    | [] =>
      if t.spill = 0#9 then (.error (.fault Code.retEmpty 0), s)
      else
        let va := s.spillBase m + 8 * (t.spill.toNat - 1)
        match s.loadVirtual m.wid va 8 with
        | (.ok v, u) =>
          if v / 2 ^ 56 % 256 ≠ 0 ∨ v % 2 = 1 then (.error (.fault Code.badTarget (BitVec.ofNat 64 v)), s)
          else (.ok (BitVec.ofNat 64 v), u.modThread m fun x => { x with spill := x.spill - 1 })
        | (.error x, u) => (.error x, u)

/-! ### Branches, calls and returns (R106) -/

/-- R106: the address an offset in halfwords leads to, modulo 2^64. -/
def Env.relative (e : Env) (off : BitVec 64) : BitVec 64 := BitVec.ofNat 64 e.pc + (off <<< 1)

def opBra (len : Nat) (f : XI) (s : State) : State :=
  s.issue { shapeXI len f [] with place := .ending } fun e s => .go s (e.exec.map fun m => (m, e.relative (f.imm.signExtend 64)))

/-- R106: the halfword after a call. -/
def Env.after (e : Env) : VAddr := BitVec.ofNat 56 (e.pc + e.len)

/-- R106: every executing thread pushes its return address and goes to its target. -/
def Env.callTo (e : Env) (s : State) (target : Member → BitVec 64) : Effect :=
  let (l, t) := e.forEach s fun m t => t.push m e.after
  match settle s t l with
  | some (.hold u) => .hold (s.heldUp .busy u)
  | some x => x
  | none => .go t (e.exec.map fun m => (m, target m))

def opCall (len : Nat) (f : XI) (s : State) : State :=
  s.issue { shapeXI len f [] with place := .ending } fun e s => e.callTo s fun _ => e.relative (f.imm.signExtend 64)

def opBrx (len : Nat) (f : X3) (s : State) : State :=
  s.issue { shapeX3 len f [r2 f.a] with place := .ending } fun e s => .go s (e.exec.map fun m => (m, s.pair m f.a.toNat))

def opCallx (len : Nat) (f : X3) (s : State) : State :=
  s.issue { shapeX3 len f [r2 f.a] with place := .ending } fun e s => e.callTo s fun m => s.pair m f.a.toNat

/-- Every executing thread's return address, with the threads that have none. -/
def Env.popAll (e : Env) (s : State) : List (Member × BitVec 64) × List (Member × Stop) × State :=
  e.exec.foldl (fun (r, l, t) m => match t.pop m with
    | (.ok x, u) => (r ++ [(m, x)], l, u)
    | (.error x, u) => (r, l ++ [(m, x)], u)) ([], [], s)

def opRet (len : Nat) (f : X3) (s : State) : State :=
  s.issue { shapeX3 len f [] with place := .ending } fun e s =>
    let (targets, l, t) := e.popAll s
    match settle s t l with
    | some (.hold u) => .hold (s.heldUp .busy u)
    | some x => x
    | none => .go t targets

/-! ### Loops (R107, R108) -/

def Thread.loopActive (t : Thread) (n : Nat) : Bool := t.loops.any (·.lcn == n)

/-- R107: LOOP for one thread whose count is not zero. -/
def Thread.beginLoop (t : Thread) (n : Nat) (c : Word) (start stop : VAddr) : Thread :=
  { t.setLc n c with loops := ⟨n, start, stop⟩ :: t.loops }

def opLoop (len : Nat) (f : XI) (s : State) : State :=
  s.issue { shapeXI len f [r1 f.d] with place := .ending } fun e s =>
    let n := f.a.toNat
    let stop : VAddr := e.after + BitVec.ofNat 56 (2 * (f.imm.extractLsb' 0 12).toNat)
    let bad := e.exec.filter fun m => match s.thread? m with | some t => t.loopActive n || decide (3 ≤ t.loops.length) | none => false
    if !bad.isEmpty then .fault (allCauses bad Code.loopState 0) 0
    else
      let count : Member → Word := fun m => s.reg m f.d.toNat
      .go ((e.exec.filter fun m => count m != 0).foldl (fun t m => t.modThread m fun u => u.beginLoop n (count m) e.after stop) s)
        ((e.exec.filter fun m => count m == 0).map fun m => (m, stop.zeroExtend 64))

/-- R108: the loop that holds a counter and every loop inside it are removed, their counters cleared. -/
def Thread.breakLoop (t : Thread) (n : Nat) : Thread :=
  let inner := t.loops.takeWhile (·.lcn != n)
  let gone := t.loops.take (inner.length + 1)
  { gone.foldl (fun u l => u.setLc l.lcn 0) t with loops := t.loops.drop (inner.length + 1) }

def opLbrk (len : Nat) (f : X3) (s : State) : State :=
  s.issue { shapeX3 len f [] with place := .ending } fun e s =>
    let n := f.d.toNat
    let bad := e.exec.filter fun m => match s.thread? m with | some t => !t.loopActive n | none => false
    if !bad.isEmpty then .fault (allCauses bad Code.loopState 0) 0
    else
      .go (e.exec.foldl (fun t m => t.modThread m fun u => u.breakLoop n) s)
        (e.exec.filterMap fun m => ((s.thread? m).bind fun t => t.loops.find? (·.lcn == n)).map fun l => (m, l.stop.zeroExtend 64))

/-! ### EXIT, YIELD, WAITF, SLEEP, NOP (R109, R110, R112) -/

/-- R109. -/
def Thread.exit (t : Thread) : Thread := { t with status := .exited, hidden := [], spill := 0, loops := [] }

/-- An instruction that changes the executing threads alone and ends its run. -/
def opEnding (sh : Shape) (g : Nat → Thread → Thread) (s : State) : State :=
  s.issue { sh with place := .ending } fun e s => .done (e.exec.foldl (fun t m => t.modThread m (g s.now)) s)

def opExit (len : Nat) (f : X3) (s : State) : State := opEnding (shapeX3 len f []) (fun _ t => t.exit) s
def opYield (len : Nat) (f : X3) (s : State) : State := opEnding (shapeX3 len f []) (fun _ t => { t with yielded := true }) s
def opWaitf (len : Nat) (f : XI) (s : State) : State :=
  opEnding (shapeXI len f []) (fun _ t => { t with wmask := f.imm.extractLsb' 0 12 }) s

/-- R110: N = 0 acts as YIELD. -/
def opSleep (len : Nat) (f : XI) (s : State) : State :=
  opEnding (shapeXI len f []) (fun now t => if f.imm = 0#32 then { t with yielded := true } else { t with notBefore := now + f.imm.toNat }) s

def opNop (len : Nat) (f : XS) (s : State) : State := s.issue (shapeXS len f []) fun _ s => .done s

/-! ### SVAL (R35, R111, R137, R160, R228, R291, R321) -/

/-- Width in bits of a system value; none where the selector is undefined. -/
def svalWidth (sel : Nat) : Option Nat :=
  if [0x00, 0x03, 0x0B, 0x0D, 0x0E, 0x0F, 0x50, 0x60, 0x62, 0x63].contains sel then some 64
  else if sel ≤ 0x1B ∨ (0x20 ≤ sel ∧ sel ≤ 0x2A) ∨ sel = 0x30 ∨ sel = 0x31 ∨ (0x40 ≤ sel ∧ sel ≤ 0x52) ∨ (0x60 ≤ sel ∧ sel ≤ 0x64) then
    some 32
  else none

/-- R290: the product of the extents of the levels from `lo` up to but not including `hi`. -/
def Launch.span (l : Launch) (lo hi : Nat) : Nat := ((List.range hi).filter (lo ≤ ·)).foldl (fun p i => p * l.extent i) 1

/-- R290: coordinate at level i of a thread whose index in the block is t, in the block of that linear index. -/
def Launch.coordinate (l : Launch) (t linear i : Nat) : Nat :=
  let k := l.blockLevel
  if l.levels ≤ i then 0
  else if i ≤ k then t / l.span 0 i % max 1 (l.extent i)
  else linear / l.span (k + 1) i % max 1 (l.extent i)

/-- R299: TEAMRANK. -/
def Launch.teamRank (l : Launch) (linear : Nat) : Nat :=
  match (List.range l.levels).filter fun i => l.domain i == 3 with
  | [] => 0
  | ls => linear % max 1 (l.span (l.blockLevel + 1) (ls.foldl max 0 + 1))

/-- R34: the stack pointer a thread starts with. -/
def State.stackTop (s : State) (m : Member) : Nat :=
  s.recField m.wid 183 128 + (s.globalIndex m + 1) * (s.recField m.wid 400 384 * 16)

/-- The members of a group in one warp. -/
def Env.lanesOfWarp (e : Env) (wid : Nat) : BitVec 32 := maskOf ((e.members.filter (·.wid == wid)).map (·.lane))

/-- The value of a selector, as a thread reads it. -/
def State.sval (s : State) (e : Env) (m : Member) (sel : Nat) : Nat :=
  match s.warp? m.wid, s.thread? m with
  | some w, some t =>
    let l := s.launchOfWarp w
    let linear := match s.block? w.block with | some b => b.linear | none => 0
    if 0x10 ≤ sel ∧ sel ≤ 0x1B then (w.flag (sel - 0x10)).toNat
    else if 0x40 ≤ sel ∧ sel ≤ 0x47 then (l.map fun l => l.coordinate (w.index * 32 + m.lane) linear (sel - 0x40)).getD 0
    else if 0x48 ≤ sel ∧ sel ≤ 0x4F then (l.map fun l => if sel - 0x48 < l.levels then l.extent (sel - 0x48) else 0).getD 0
    else match sel with
      | 0x00 => e.pc
      | 0x01 => e.pos
      | 0x02 => t.hidden.length + t.spill.toNat
      | 0x03 => s.spillBase m
      | 0x04 => w.alloc
      | 0x05 => w.pts.toNat
      | 0x06 => w.flagsNonzero.toNat
      | 0x07 => (t.lc 0).toNat
      | 0x08 => (t.lc 1).toNat
      | 0x09 => (t.lc 2).toNat
      | 0x0A => t.preds.toNat
      | 0x0B => (s.cycle e.core).toNat
      | 0x0C => s.ctxOf m.wid
      | 0x0D => s.stackTop m
      | 0x0E => s.recField m.wid 119 64
      | 0x0F => s.recField m.wid 55 0
      | 0x20 => m.lane
      | 0x21 => w.index
      | 0x22 => e.q % 4
      | 0x23 => w.slot
      | 0x24 => w.part
      | 0x25 => m.lane % w.part
      | 0x26 => w.liveMask.toNat
      | 0x27 => (e.lanesOfWarp m.wid).toNat
      | 0x28 => if w.mmode then 1 else 0
      | 0x29 => ((s.quarter e.q).fabric.filter (·.wid == m.wid)).length + w.suspended.length
      | 0x2A => (w.records.foldl (fun (b : BitVec 8) (k, _) => b ||| BitVec.twoPow 8 k) 0).toNat
      | 0x30 => if s.fused (clusterOf e.core) then 1 else 0
      | 0x31 => s.staleWindow m.wid
      | 0x50 => s.globalIndex m
      | 0x51 => (l.map fun l => l.queue * 2 ^ 24 + l.sub).getD 0
      | 0x52 => (l.map fun l => l.teamRank linear).getD 0
      | 0x60 => s.frameAt m.wid (max 1 w.level)
      | 0x61 => if w.level = 0 then 0 else ((t.causes.head?).map (·.code.toNat)).getD 0
      | 0x62 => if w.level = 0 then 0 else ((t.causes.head?).map (·.addr.toNat)).getD 0
      | 0x63 => s.saveSlot m.wid
      | 0x64 => w.level
      | _ => 0
  | _, _ => 0

/-- R268: the flags a read of FLAGNZ or FCOUNTn shows at zero. -/
def Warp.shownZero (w : Warp) (sel : Nat) : BitVec 12 :=
  if sel = 0x06 then (List.range 12).foldl (fun k f => if w.flag f = 0 then k ||| BitVec.twoPow 12 f else k) 0
  else if 0x10 ≤ sel ∧ sel ≤ 0x1B ∧ w.flag (sel - 0x10) = 0 then BitVec.twoPow 12 (sel - 0x10)
  else 0

def opSval (len : Nat) (f : XI) (s : State) : State :=
  let sel := f.imm.toNat
  let wide := svalWidth sel == some 64
  let sh := shapeXI len f [if wide then r2 f.d else r1 f.d]
  s.issue { sh with fits := (svalWidth sel).isSome } fun e s =>
    let t := if wide then e.writePair s f.d.toNat fun m => BitVec.ofNat 64 (s.sval e m sel)
      else e.write s f.d.toNat fun m => BitVec.ofNat 32 (s.sval e m sel)
    .done ((warpsOf e.exec).foldl (fun t w => t.modWarp w fun x => x.observeFlags (x.shownZero sel)) t)

/-! ### Meanings -/

/-- NOP, R112. -/
def execNop (s : State) : Out := .next (opNop 4 (s.sys32 0 0 0) s)

/-- NOP_W, R112. -/
def execNopW (f : XS) (s : State) : Out :=
  .next (opNop 8 f s)

/-- BRA, R106: J counts halfwords. -/
def execBra (j : BitVec 21) (s : State) : Out := .next (opBra 4 { s.imm32 0 0 0 with imm := j.signExtend 32 } s)

/-- BRA_W, R106. -/
def execBraW (f : XI) (s : State) : Out :=
  .next (opBra 8 f s)

/-- BRX, R106. -/
def execBrx (a : BitVec 7) (s : State) : Out :=
  .next (opBrx 4 (s.form32 0 a 0) s)

/-- BRX_W, R106. -/
def execBrxW (f : X3) (s : State) : Out :=
  .next (opBrx 8 f s)

/-- CALL, R106: J counts halfwords. -/
def execCall (j : BitVec 21) (s : State) : Out := .next (opCall 4 { s.imm32 0 0 0 with imm := j.signExtend 32 } s)

/-- CALL_W, R106. -/
def execCallW (f : XI) (s : State) : Out :=
  .next (opCall 8 f s)

/-- CALLX, R106. -/
def execCallx (a : BitVec 7) (s : State) : Out :=
  .next (opCallx 4 (s.form32 0 a 0) s)

/-- CALLX_W, R106. -/
def execCallxW (f : X3) (s : State) : Out :=
  .next (opCallx 8 f s)

/-- RET, R106. -/
def execRet (s : State) : Out := .next (opRet 4 (s.form32 0 0 0) s)

/-- RET_W, R106. -/
def execRetW (f : X3) (s : State) : Out :=
  .next (opRet 8 f s)

/-- LOOP, R107. -/
def execLoop (off : BitVec 12) (lcn : BitVec 2) (cnt : BitVec 7) (s : State) : Out :=
  .next (opLoop 4 { s.imm32 0 0 cnt with a := lcn.zeroExtend 8, imm := off.zeroExtend 32 } s)

/-- LOOP_W, R107. -/
def execLoopW (f : XI) (s : State) : Out :=
  .next (opLoop 8 f s)

/-- LBRK, R108. -/
def execLbrk (d : BitVec 7) (s : State) : Out :=
  .next (opLbrk 4 (s.form32 0 0 d) s)

/-- LBRK_W, R108. -/
def execLbrkW (f : X3) (s : State) : Out :=
  .next (opLbrk 8 f s)

/-- EXIT, R109. -/
def execExit (s : State) : Out := .next (opExit 4 (s.form32 0 0 0) s)

/-- EXIT_W, R109. -/
def execExitW (f : X3) (s : State) : Out :=
  .next (opExit 8 f s)

/-- YIELD, R110. -/
def execYield (s : State) : Out := .next (opYield 4 (s.form32 0 0 0) s)

/-- YIELD_W, R110. -/
def execYieldW (f : X3) (s : State) : Out :=
  .next (opYield 8 f s)

/-- WAITF, R110. -/
def execWaitf (k : BitVec 12) (s : State) : Out := .next (opWaitf 4 { s.imm32 0 0 0 with imm := k.zeroExtend 32 } s)

/-- WAITF_W, R110. -/
def execWaitfW (f : XI) (s : State) : Out :=
  .next (opWaitf 8 f s)

/-- SLEEP, R110. -/
def execSleep (n : BitVec 14) (s : State) : Out := .next (opSleep 4 { s.imm32 0 0 0 with imm := n.zeroExtend 32 } s)

/-- SLEEP_W, R110. -/
def execSleepW (f : XI) (s : State) : Out :=
  .next (opSleep 8 f s)

/-- SVAL, R111. -/
def execSval (sel : BitVec 7) (d : BitVec 7) (s : State) : Out := .next (opSval 4 { s.imm32 0 0 d with imm := sel.zeroExtend 32 } s)

/-- SVAL_W, R111. -/
def execSvalW (f : XI) (s : State) : Out :=
  .next (opSval 8 f s)

end Sys2Proof.Machine
end

