-- ==== Sys2Proof/Machine/Fence.lean ====
section
/-! DEFINITION. FENCE (R251 to R253) and the ordering it gives. -/

namespace Sys2Proof.Machine

open Sys2Proof

/-! ### Groups that wait -/

/-- R13: the members of a waiting group that execute its instruction. -/
def State.waitExec (s : State) (x : Wait) (guard : BitVec 4) (sense : BitVec 1) : List Member :=
  x.members.filter fun m => match s.thread? m with | some t => guardHolds t guard sense | none => false

/-! ### Clocks of a scope (R252) -/

def State.allHomeClocks (s : State) : LTime := (List.range 4).foldl (fun t q => maxs t (s.clock (homeClockKey q))) (s.clock (homeClockKey 0))

/-- R252: scclock of a scope whose point lies below the home. -/
def State.scClock (s : State) (core scope : Nat) : LTime :=
  let slices (key : Nat → Nat) : LTime := (List.range 96).foldl (fun t k => maxs t (s.clock (key k))) (s.clock (key 0))
  if s.fused (clusterOf core) then slices (fusedClockKey (clusterOf core))
  else if scope = 1 then s.clock (l1ClockKey core)
  else slices (l2ClockKey (dieOf core))

/-! ### FENCE -/

def fenceReleases (f : XM) : Bool := (f.var.extractLsb' 0 2) != 0
def fenceAcquires (f : XM) : Bool := (f.var.extractLsb' 0 2) != 1
def fenceSc (f : XM) : Bool := (f.var.extractLsb' 0 2) == 3
def fenceStatus (f : XM) : Bool := f.var.getLsbD 2

/-- The dirty lines between a core and the home. -/
def State.dirtyCount (s : State) (core : Nat) : Nat := (s.dirtyLines (s.corePoint core)).length + (s.dirtyLines (l2Point (dieOf core))).length

/-- R253: the unacknowledged writes to peers that the release of a warp on a die waits for, and those given up as lost: its own, and what
the points of its die have written back. -/
def Posted.ofWarp (p : Posted) (wid die : Nat) : Bool := p.rel == some wid || p.point.any fun q => pointDie q == die

def State.postedOf (s : State) (wid : Nat) : List Posted :=
  (s.host.posted.filter fun (_, p) => p.ofWarp wid (dieOf (s.coreOf wid))).map (·.2)

/-- R245, R400: the release at a scope writes back past the points of the core. -/
def State.reachesOut (s : State) (wid scope : Nat) : Bool :=
  match s.reach (s.ctxOf wid) (s.coreOf wid) scope with | .none | .point => false | .slice | .home => true

/-- R245, R253, R400: one attempt at the release of a warp; answers whether it is complete. -/
def State.fenceRelease (s : State) (wid scope : Nat) : Bool × State :=
  match s.release wid scope with
  | (some t, _) =>
    (!s.reachesOut wid scope || (t.postedOf wid).all (·.lost), t)
  | (none, t) => (false, t)

/-- R252: what FENCE.sc adds to a release. -/
def State.fenceTimes (s : State) (wid scope : Nat) : State :=
  let core := s.coreOf wid
  match s.reach (s.ctxOf wid) core scope with
  | .none => s
  | .home => s.modWarp wid fun w => { w with pts := maxs w.pts s.allHomeClocks }
  | _ => s.modWarp wid fun w => { w with pts := maxs w.pts (s.scClock core scope) }

/-- R253, R341: the peers that a fence gave up on, each with the number of its unacknowledged writes. -/
def State.lostPeersOf (s : State) (wid : Nat) : List (Nat × Nat) :=
  let l := (s.postedOf wid).filter (·.lost)
  (distinct (l.map (·.peer))).map fun p => (p, (l.filter (·.peer == p)).length)

/-- R252, R253: a fence completes for one warp. -/
def State.fenceDone (s : State) (f : XM) (wid lines : Nat) : State :=
  let scope := f.scope.toNat
  let lost := if fenceReleases f && s.reachesOut wid scope then s.lostPeersOf wid else []
  let s1 := if fenceSc f then s.fenceTimes wid scope else s
  let s2 := if fenceAcquires f then s1.acquire wid else s1
  let s3 := lost.foldl (fun t (p, n) => t.recordWarp wid 0x12 (p + place 9 n)) s2
  let status := if lost.isEmpty then 0 else 1
  let s4 : State := if lost.isEmpty then s3 else { s3 with host := { s3.host with
    posted := s3.host.posted.filter fun (_, p) => !(p.lost && p.ofWarp wid (dieOf (s.coreOf wid))) } }
  if scope = 3 ∨ scope = 4 then
    s4.recordWarp wid 0x0A ((f.var.toNat % 4) + place 2 scope + place 8 status + place 16 (min 65535 lines))
  else s4

/-- R252: one attempt to complete a fence that waits. -/
def State.tryFence (s : State) (id : Nat) (x : Wait) (f : XM) (lines : Tab Nat) : State :=
  let exec := s.waitExec x f.guard f.sense
  let wids := warpsOf exec
  let (ok, counts, t) := if !fenceReleases f then (true, lines, s)
    else wids.foldl (fun (ok, c, t) w =>
      let before := t.dirtyCount (t.coreOf w)
      let (b, u) := t.fenceRelease w f.scope.toNat
      (ok && b, Tab.put c w (Tab.getD c w 0 + (before - u.dirtyCount (u.coreOf w))), u)) (true, lines, s)
  if !ok then { t with waits := Tab.modify t.waits id fun w => { w with kind := .fence f counts } }
  else
    let lostOf (w : Nat) : Bool := fenceReleases f && t.reachesOut w f.scope.toNat && !(t.lostPeersOf w).isEmpty
    let t1 := if fenceStatus f then exec.foldl (fun u m => u.setReg m f.d.toNat (if lostOf m.wid then 1 else 0)) t else t
    (wids.foldl (fun u w => u.fenceDone f w (Tab.getD counts w 0)) t1).endWait id

def opFence (f : XM) (s : State) : State :=
  s.issue (shapeXM f (if fenceStatus f then [r1 f.d] else [])) fun _ s => .wait (.fence f []) false s

/-- FENCE, R251, R252. -/
def execFence (f : XM) (s : State) : Out := .next (opFence f s)

end Sys2Proof.Machine
end

