-- ==== Sys2Proof/Machine/Objects.lean ====
section
/-! DEFINITION. Ring objects (R280 to R282), barrier objects (R283 to R286) and the keystones that combine barriers (R285). -/

namespace Sys2Proof.Machine

open Sys2Proof

/-! ### Objects in a scratchpad -/

/-- n bytes at a byte offset of a core's scratchpad. -/
def State.objRead (s : State) (core off n : Nat) : Nat := lineRead (s.scratchLine (core * 4096 + off / 128)).data (off % 128) n

def State.objWrite (s : State) (core off n v : Nat) : State :=
  let k := core * 4096 + off / 128
  let l := s.scratchLine k
  s.putScratch k { l with data := mergeLine l.data (lineValue (off % 128) n v) (byteMask (off % 128) n) }

/-- The resident block that holds a byte of a core's scratchpad. -/
def State.blockAt (s : State) (core off : Nat) : Option (Nat × Block) :=
  s.blocks.find? fun (_, b) => b.core == core && !b.departed && !b.saved && decide (b.firstLine ≤ off / 128) && decide (off / 128 < b.firstLine + b.lines)

/-- The own-block offset of a byte of a core's scratchpad, and back. -/
def Block.offset (b : Block) (off : Nat) : Nat := off - b.firstLine * 128

/-! ### Times of objects -/

/-- Times of an object that are kept: 0 the phase under way, 2 the mark of R283, 16 on the slots of a ring, 1024 on the phases. -/
def objKey (core off i : Nat) : Nat := (core * 2 ^ 19 + off) * 2048 + i

/-- R284: where the time of a phase is kept, by its generation. -/
def phaseTime (gen : Nat) : Nat := 1024 + gen % 1024

def State.objTime? (s : State) (core off i : Nat) : Option LTime := Tab.get? s.objTimes (objKey core off i)

def State.putObjTime (s : State) (core off i : Nat) (t : LTime) : State := { s with objTimes := Tab.put s.objTimes (objKey core off i) t }

def State.delObjTime (s : State) (core off i : Nat) : State := { s with objTimes := Tab.del s.objTimes (objKey core off i) }

/-- No time of an object is kept. -/
def State.clearObjTimes (s : State) (core off : Nat) : State :=
  { s with objTimes := s.objTimes.filter fun (k, _) => k / 2048 != core * 2 ^ 19 + off }

/-! ### Ring objects (R280) -/

structure Ring where
  lines : Nat
  slots : Nat
  base : Nat
  ap : Nat
  rp : Nat
  cp : Nat
  wp : Nat
  /-- its reserved bits [103:83] and [255:121], in place: an update keeps them -/
  reserved : Nat
  deriving DecidableEq, Repr

def Ring.ofNat (v : Nat) : Ring :=
  ⟨field v 120 112 + 1, field v 111 104 + 1, field v 82 64, field v 63 48, field v 47 32, field v 31 16, field v 15 0,
   place 121 (field v 255 121) + place 83 (field v 103 83)⟩

def Ring.toNat (r : Ring) : Nat :=
  r.reserved + place 112 (r.lines - 1) + place 104 (r.slots - 1) + place 64 r.base + place 48 (r.ap % 65536) + place 32 (r.rp % 65536) +
  place 16 (r.cp % 65536) + r.wp % 65536

/-- A distance modulo 2^16. -/
def ringDist (a b : Nat) : Nat := (a + 65536 - b % 65536) % 65536

/-- R280: distances from RP: RP ≤ AP ≤ WP ≤ CP, and at most NSLOTM + 1 slots claimed. -/
def Ring.wellFormed (r : Ring) : Bool :=
  r.reserved == 0 && r.base % 128 == 0 && decide (ringDist r.ap r.rp ≤ ringDist r.wp r.rp) &&
  decide (ringDist r.wp r.rp ≤ ringDist r.cp r.rp) && decide (ringDist r.cp r.rp ≤ r.slots)

def Ring.full (r : Ring) : Bool := ringDist r.cp r.rp == r.slots

/-- Own-block offset of a slot, by a pointer. -/
def Ring.slotOffset (r : Ring) (p : Nat) : Nat := r.base + p % r.slots * r.lines * 128

def State.ring (s : State) (core off : Nat) : Ring := Ring.ofNat (s.objRead core off 32)

def State.putRing (s : State) (core off : Nat) (r : Ring) : State := s.objWrite core off 32 r.toNat

/-- Every task of the package's engines, with its queue. -/
def State.allTasks (s : State) : List (Nat × Task) := s.engines.flatMap fun (k, q) => q.tasks.map fun t => (k, t)

/-- R282: a claimed slot of a ring is not yet published. -/
def State.ringInUse (s : State) (core off : Nat) : Bool :=
  s.allTasks.any fun (_, t) => match t.ring with | some (c, o, _) => c == core && o == off | none => false

def objFault (e : Env) : Effect := .fault (allCauses e.exec Code.objState 0) 0

/-- R282. -/
def opRinit (f : XE) (s : State) : State :=
  s.issue (shapeXE f [r2 f.a, r1 f.b, r1 f.c]) fun e s =>
    let m := e.first
    let c := s.reg m f.c.toNat
    let base := (s.reg m f.b.toNat).toNat
    let slots := c.toNat % 256 + 1
    let lines := field c.toNat 24 16 + 1
    match s.ownObject m (s.pair m f.a.toNat).toNat 32, s.block? (s.blockOf m.wid) with
    | some (core, off), some b =>
      let o := b.offset off
      let size := slots * lines * 128
      if base % 128 ≠ 0 ∨ field c.toNat 15 8 ≠ 0 ∨ field c.toNat 31 25 ≠ 0 ∨ b.lines * 128 < base + size ∨
          (base < o + 32 ∧ o < base + size) ∨ s.ringInUse core off then objFault e
      else .done (s.putRing core off ⟨lines, slots, base, 0, 0, 0, 0, 0⟩)
    | _, _ => objFault e

/-- The ring of an operand, when it is well formed. -/
def State.ringOf (s : State) (m : Member) (va : Nat) : Option (Nat × Nat × Ring) :=
  match s.ownObject m va 32 with
  | some (core, off) => let r := s.ring core off; if r.wellFormed then some (core, off, r) else none
  | none => none

/-- R282: RAWAIT waits with its slot free. -/
def opRawait (f : XE) (s : State) : State :=
  s.issue (shapeXE f [r1 f.d, r2 f.a]) fun e s =>
    match s.ringOf e.first (s.pair e.first f.a.toNat).toNat with
    | some _ => .wait (.rawait f) false s
    | none => objFault e

/-- R282: release at .blk, which waits for the warp's own accesses. -/
def opRrel (f : XE) (s : State) : State :=
  s.issue (shapeXE f [r2 f.a]) fun e s =>
    match s.ringOf e.first (s.pair e.first f.a.toNat).toNat with
    | none => objFault e
    | some (core, off, r) =>
      if r.rp = r.ap then objFault e
      else if !(warpsOf e.exec).all s.quiet then .hold s
      else .done (s.putRing core off { r with rp := r.rp + 1 })

/-! ### Waits that end with a fault -/

/-- R141: a group that waits takes a fault at the instruction it waits at. -/
def State.faultWait (s : State) (id : Nat) (x : Wait) (causes : List Cause) (info : BitVec 64) : State :=
  let q := match x.members with | m :: _ => (match s.warp? m.wid with | some w => w.quarterOf | none => 0) | [] => 0
  (s.retryWait id).raise q x.members causes info

/-- RAWAIT, R282: one attempt. -/
def State.tryRawait (s : State) (id : Nat) (x : Wait) (f : XE) : State :=
  let exec := s.waitExec x f.guard f.sense
  match exec with
  | [] => s.endWait id
  | m :: _ =>
    match s.ownObject m (s.pair m f.a.toNat).toNat 32 with
    | none => s.faultWait id x (allCauses exec Code.objState 0) 0
    | some (core, off) =>
      let r := s.ring core off
      if !r.wellFormed then s.faultWait id x (allCauses exec Code.objState 0) 0
      else if r.ap = r.wp then s
      else
        let s1 := exec.foldl (fun t m => t.setReg m f.d.toNat (BitVec.ofNat 32 (r.slotOffset r.ap))) s
        let s2 := s1.putRing core off { r with ap := r.ap + 1 }
        let time := s.objTime? core off (16 + r.ap % r.slots)
        let s3 := (warpsOf exec).foldl (fun t w => match time with | some x => t.acquireAt w x | none => t.acquire w) s2
        s3.endWait id

/-! ### Barrier objects (R283) -/

structure Barrier where
  reserved : Nat
  fwd : Bool
  level : Nat
  gen : Nat
  bytes : Int
  expct : Nat
  arr : Nat
  deriving DecidableEq, Repr

def Barrier.ofNat (v : Nat) : Barrier :=
  ⟨field v 127 79, field v 78 78 == 1, field v 77 75, field v 74 65, (BitVec.ofNat 32 (field v 63 32)).toInt, field v 31 16, field v 15 0⟩

/-- R283: PHASE is GEN[0]. -/
def Barrier.toNat (b : Barrier) : Nat :=
  place 79 b.reserved + place 78 (if b.fwd then 1 else 0) + place 75 b.level + place 65 (b.gen % 1024) + place 64 (b.gen % 2) +
  place 32 (BitVec.ofInt 32 b.bytes).toNat + place 16 b.expct + b.arr % 65536

def State.barrier (s : State) (core off : Nat) : Barrier := Barrier.ofNat (s.objRead core off 16)

def State.putBarrier (s : State) (core off : Nat) (b : Barrier) : State := s.objWrite core off 16 b.toNat

/-- R283: the object is malformed: its reserved bits, its level, or an update that left the range of BYTES. -/
def State.barrierBad (s : State) (core off : Nat) : Bool :=
  let b := s.barrier core off
  b.reserved != 0 || decide (5 ≤ b.level) || (s.objTime? core off 2).isSome

/-- R285: the domain and the scope of a level. -/
def barrierDomain (level : Nat) : Nat := level + 2
def barrierScope (level : Nat) : Nat := match level with | 0 => 1 | 1 | 2 => 2 | _ => 3

/-- R285: the launch's level bound to a domain. -/
def Launch.levelOf (l : Launch) (dom : Nat) : Option Nat :=
  ((List.range l.levels).filter fun i => l.domain i == dom).foldl (fun _ i => some i) none

/-- R285: blocks of an instance of a level, and the instance of a block. -/
def Launch.instanceBlocks (l : Launch) (i : Nat) : Nat := max 1 (l.span (l.blockLevel + 1) (i + 1))

/-- R284, R358: a phase completes, carrying a time, which is kept under its generation. -/
def State.completePhase (s : State) (core off : Nat) (t : LTime) : State :=
  let b := s.barrier core off
  let s1 := s.putBarrier core off { b with fwd := false, gen := (b.gen + 1) % 1024, arr := b.expct }
  let s2 := s1.putObjTime core off (phaseTime b.gen) t
  match s2.blockAt core off with
  | some (i, _) => s2.modBlock i fun x => { x with epoch := x.epoch + 1 }
  | none => s2

/-- R284: the zero test after an update. The phase's time goes with it: what is carried from then on belongs to the next phase. -/
def State.zeroTest (s : State) (core off : Nat) : State :=
  let b := s.barrier core off
  if s.barrierBad core off ∨ b.arr ≠ 0 ∨ b.bytes ≠ 0 ∨ b.fwd then s
  else
    let t := (s.objTime? core off 0).getD 0
    if b.level = 0 then (s.delObjTime core off 0).completePhase core off t
    else
      match s.blockAt core off with
      | none => s
      | some (_, x) =>
        match s.launch? x.launch with
        | none => s
        | some l =>
          match l.levelOf (barrierDomain b.level) with
          | none => s
          | some i =>
            let a : Arrival := ⟨x.launch, b.level, x.linear / l.instanceBlocks i, x.linear, x.offset off, t⟩
            { (s.delObjTime core off 0).putBarrier core off { b with fwd := true } with arrivals := Tab.put s.arrivals s.fresh a, fresh := s.fresh + 1 }

/-- R284: the phase under way carries a time. -/
def State.carry (s : State) (core off : Nat) (t : LTime) : State :=
  s.putObjTime core off 0 (match s.objTime? core off 0 with | some u => maxs u t | none => t)

/-- R283, R284: bytes are added to BYTES, or subtracted from it. -/
def State.addBytes (s : State) (core off : Nat) (n : Int) (t : Option LTime) : State :=
  if s.barrierBad core off then s
  else
    let b := s.barrier core off
    let v := b.bytes + n
    if v < -2 ^ 31 ∨ 2 ^ 31 - 1 < v then s.putObjTime core off 2 0
    else
      let s1 := s.putBarrier core off { b with bytes := v }
      (match t with | some x => s1.carry core off x | none => s1).zeroTest core off

/-- R284: an arrival. -/
def State.arrive (s : State) (core off n : Nat) (t : LTime) : State :=
  let b := s.barrier core off
  ((s.putBarrier core off { b with arr := b.arr - n }).carry core off t).zeroTest core off

/-! ### Barrier instructions (R286) -/

/-- A warp waits in BARV or BWAIT at an object. -/
def State.barrierWaits (s : State) (core off : Nat) : List (Nat × Wait × XE) :=
  s.waits.filterMap fun (i, x) =>
    match x.kind, x.members with
    | .bwait f, _ | .barv f, _ => match s.waitExec x f.guard f.sense with
      | m :: _ => if s.ownObject m (s.pair m f.a.toNat).toNat 16 = some (core, off) then some (i, x, f) else none
      | [] => none
    | _, _ => none

/-- R286: an engine command that names the object is outstanding. -/
def State.barrierNamed (s : State) (core off : Nat) : Bool := s.allTasks.any fun (_, t) => t.bars.contains (core, off)

def opBinit (f : XE) (s : State) : State :=
  s.issue (shapeXE f [r2 f.a, r1 f.b]) fun e s =>
    let m := e.first
    let n := (s.reg m f.b.toNat).toNat
    let level := f.var8.toNat % 8
    match s.ownObject m (s.pair m f.a.toNat).toNat 16, (s.warp? m.wid).bind s.launchOfWarp with
    | some (core, off), some l =>
      if n = 0 ∨ 65535 < n ∨ 5 ≤ level ∨ (l.levelOf (barrierDomain level)).isNone ∨ !(s.barrierWaits core off).isEmpty ∨
          s.barrierNamed core off then objFault e
      else
        let s1 := s.putBarrier core off ⟨0, false, level, 0, 0, n, n⟩
        .done (s1.clearObjTimes core off)
    | _, _ => objFault e

/-- The barrier object of an operand, when it is well formed. -/
def State.barrierOf (s : State) (m : Member) (va : Nat) : Option (Nat × Nat) :=
  match s.ownObject m va 16 with
  | some (core, off) => if s.barrierBad core off then none else some (core, off)
  | none => none

/-- R286: BARV releases with its slot free. -/
def opBarv (f : XE) (s : State) : State :=
  s.issue (shapeXE f ([r1 f.d, r2 f.a] ++ if f.var8.getLsbD 0 then [r1 f.b] else [])) fun e s =>
    match s.barrierOf e.first (s.pair e.first f.a.toNat).toNat with
    | some _ => .wait (.barv f) false s
    | none => objFault e

/-- Each warp of a list releases at a scope; none while one is not complete. -/
def State.releaseAll (s : State) (scope : Nat) : List Nat → Option State × State
  | [] => (some s, s)
  | w :: rest =>
    match s.fenceRelease w scope with
    | (true, t) => t.releaseAll scope rest
    | (false, t) => (none, t)

/-- R284, R286: one attempt: the release, then the arrival. -/
def State.tryBarv (s : State) (id : Nat) (x : Wait) (f : XE) : State :=
  let exec := s.waitExec x f.guard f.sense
  match exec with
  | [] => s.endWait id
  | m :: _ =>
    match s.barrierOf m (s.pair m f.a.toNat).toNat with
    | none => s.faultWait id x (allCauses exec Code.objState 0) 0
    | some (core, off) =>
      match s.releaseAll (barrierScope (s.barrier core off).level) (warpsOf exec) with
      | (none, t) => t
      | (some t, _) =>
        let b := t.barrier core off
        let n := if f.var8.getLsbD 0 then (t.reg m f.b.toNat).toNat else exec.length
        if n = 0 ∨ b.arr < n ∨ b.fwd then t.faultWait id x (allCauses exec Code.objState 0) 0
        else
          let t1 := exec.foldl (fun u m => u.setReg m f.d.toNat (BitVec.ofNat 32 b.gen)) t
          let time := (warpsOf exec).foldl (fun u w => maxs u (t1.pts w)) (t1.pts m.wid)
          (t1.arrive core off n time).endWait id

def opBexp (f : XE) (s : State) : State :=
  s.issue (shapeXE f [r2 f.a, r1 f.b]) fun e s =>
    let n := (s.reg e.first f.b.toNat).toNat
    match s.barrierOf e.first (s.pair e.first f.a.toNat).toNat with
    | some (core, off) => if 2 ^ 31 ≤ n then objFault e else .done (s.addBytes core off n none)
    | none => objFault e

/-- R284, R286: the phase that a generation token of a thread names is complete. -/
def State.phaseOver (s : State) (core off : Nat) (f : XE) (m : Member) : Bool :=
  (s.barrier core off).gen != (s.reg m f.b.toNat).toNat % 1024

/-- R187: the instruction at which the group that holds a quarter's slot stands, with the group's lowest executing thread. -/
def State.slotInstr (s : State) (q : Nat) : Option (BitVec 64 × Member) :=
  match (s.quarter q).slot with
  | none => none
  | some g =>
    match g.members.head?.bind s.thread? with
    | none => none
    | some t =>
      match s.fetchInstr (coreOfQuarter q) (s.ctxOfGroup g) t.pc.toNat with
      | .word w =>
        let f := X3.ofWord w
        (g.members.find? fun m => (s.thread? m).any fun u => guardHolds u f.guard f.sense).map fun m => (w, m)
      | _ => none

def apatchCode : Nat := 0x107

/-- R187: an APATCH.peer of the core that names a warp and a barrier object is held at issue: the warp may not leave its wait before
the patch is complete. -/
def State.patchComes (s : State) (core off wid : Nat) : Bool :=
  (List.range 4).any fun q => (s.slotInstr (core * 4 + q)).any fun (w, m) =>
    let f := X3.ofWord w
    opcodeOf w == some apatchCode && f.scope.getLsbD 2 && s.ownObject m (s.pair m f.c.toNat).toNat 16 == some (core, off) &&
    (s.warp? wid).any fun x => x.block == s.blockOf m.wid && x.index == field (s.reg m (f.b.toNat + 1)).toNat 12 8

/-- R284: a thread's warp observes the phase that its token names. -/
def State.observePhase (s : State) (core off : Nat) (f : XE) (m : Member) : State :=
  match s.objTime? core off (phaseTime (s.reg m f.b.toNat).toNat) with | some t => s.acquireAt m.wid t | none => s.acquire m.wid

def opBwait (f : XE) (s : State) : State :=
  s.issue (shapeXE f [r2 f.a, r1 f.b]) fun e s =>
    match s.barrierOf e.first (s.pair e.first f.a.toNat).toNat with
    | some _ => .wait (.bwait f) false s
    | none => objFault e

def State.tryBwait (s : State) (id : Nat) (x : Wait) (f : XE) : State :=
  let exec := s.waitExec x f.guard f.sense
  match exec with
  | [] => s.endWait id
  | m :: _ =>
    match s.barrierOf m (s.pair m f.a.toNat).toNat with
    | none => s
    | some (core, off) =>
      if (exec.all fun m => s.phaseOver core off f m) && (warpsOf x.members).all (fun w => !s.patchComes core off w) then
        (exec.foldl (fun t m => t.observePhase core off f m) s).endWait id
      else s

def opBtest (f : XE) (s : State) : State :=
  s.issue (shapeXE f [r2 f.a, r1 f.b]) fun e s =>
    match s.barrierOf e.first (s.pair e.first f.a.toNat).toNat with
    | none => objFault e
    | some (core, off) =>
      let t := e.writePred s (f.d.toNat % 16) fun m => s.phaseOver core off f m
      .done ((e.exec.filter fun m => s.phaseOver core off f m).foldl (fun u m => u.observePhase core off f m) t)

/-! ### Keystones (R285) -/

/-- The keystone that an arrival belongs to. -/
def State.keystoneOf (s : State) (a : Arrival) : Option (Nat × Keystone) :=
  s.keystones.find? fun (_, k) => k.launch == a.launch && k.level == a.level && k.inst == a.inst && k.off == a.off

/-- R285: the blocks that take part in a barrier of a launch at a level. -/
def State.participants (s : State) (launch level : Nat) : Nat :=
  match s.launch? launch with
  | some l => match l.levelOf (barrierDomain level) with | some i => l.instanceBlocks i | none => 0
  | none => 0

/-- KEYSTONE_ARRIVAL, R285: an arrival is counted; the last one starts the release. -/
def execKeystoneArrival (k : Nat) (s : State) : Out :=
  match Tab.get? s.arrivals k with
  | none => .next s
  | some a =>
    let (i, x) := (s.keystoneOf a).getD (s.fresh, ⟨a.launch, a.level, a.inst, a.off, [], a.time, []⟩)
    if !x.releasing.isEmpty then .next s
    else
      let arrived := if x.arrived.contains a.block then x.arrived else x.arrived ++ [a.block]
      let whole := decide (s.participants a.launch a.level ≤ arrived.length)
      let y : Keystone := { x with
        arrived := if whole then [] else arrived, releasing := if whole then arrived else [], time := maxs x.time a.time }
      .next { s with arrivals := Tab.del s.arrivals k, keystones := Tab.put s.keystones i y, fresh := s.fresh + 1 }

/-- KEYSTONE_RELEASE, R284, R285: the release reaches one participant's object. -/
def execKeystoneRelease (k : Nat) (s : State) : Out :=
  match Tab.get? s.keystones k with
  | none => .next s
  | some x =>
    match x.releasing with
    | [] => .next s
    | linear :: rest =>
      let left : State := { s with keystones := if rest.isEmpty then Tab.del s.keystones k else Tab.put s.keystones k { x with releasing := rest } }
      match s.blocks.find? fun (_, b) => b.launch == x.launch && b.linear == linear && !b.departed with
      | none => .next left
      | some (_, b) =>
        if b.saved then .next s
        else
          let off := b.firstLine * 128 + x.off
          .next (if (left.barrier b.core off).fwd then left.completePhase b.core off x.time else left)

/-! ### Meanings -/

/-- RINIT, R282. -/
def execRinit (f : XE) (s : State) : Out := .next (opRinit f s)

/-- RAWAIT, R282. -/
def execRawait (f : XE) (s : State) : Out := .next (opRawait f s)

/-- RREL, R282. -/
def execRrel (f : XE) (s : State) : Out := .next (opRrel f s)

/-- BINIT, R286. -/
def execBinit (f : XE) (s : State) : Out := .next (opBinit f s)

/-- BARV, R286. -/
def execBarv (f : XE) (s : State) : Out := .next (opBarv f s)

/-- BEXP, R286. -/
def execBexp (f : XE) (s : State) : Out := .next (opBexp f s)

/-- BWAIT, R286. -/
def execBwait (f : XE) (s : State) : Out := .next (opBwait f s)

/-- BTEST, R286. -/
def execBtest (f : XE) (s : State) : Out := .next (opBtest f s)

end Sys2Proof.Machine
end

