-- ==== Sys2Proof/Machine/Regions.lean ====
section
/-! DEFINITION. Counted regions, maintenance of copies, lease hints and presence bits (R210, R215, R222, R224 to R226). -/

namespace Sys2Proof.Machine

open Sys2Proof

/-! ### Declaring a region (R210, R222) -/

/-- R222: the range lies in one window, and in the scratchpad window in the block's own allocation. -/
def State.regionFits (s : State) (blk base len : Nat) : Bool :=
  if base < scratchBase then decide (base + len ≤ scratchBase)
  else decide (base + len ≤ 2 ^ 56) &&
    match s.block? blk with
    | some b =>
      let p := (s.position blk base).2
      let lo := b.core * 2 ^ 19 + b.firstLine * 128
      (s.scratchAt blk base).isSome && decide (lo ≤ p) && decide (p + len ≤ lo + b.lines * 128)
    | none => false

/-- R210: two regions share a byte. Those in the scratchpad of a block that is saved lie nowhere. -/
def State.regionsMeet (s : State) (a b : Region) : Bool :=
  let p := s.position a.block a.base.toNat
  let q := s.position b.block b.base.toNat
  !(p.1 && ((s.block? a.block).any (·.saved) || (s.block? b.block).any (·.saved))) && p.1 == q.1 && decide (p.2 < q.2 + b.len) && decide (q.2 < p.2 + a.len)

/-- R210: a scratchpad region keeps its place in its block's allocation: its base is held as an own-block alias address. -/
def State.aliasOf (s : State) (blk base : Nat) : Nat :=
  match s.block? blk, s.position blk base with
  | some b, (true, off) => aliasBase + (off - (b.core * 2 ^ 19 + b.firstLine * 128))
  | _, _ => base

def opCrdecl (f : XM) (s : State) : State :=
  s.issue (shapeXM f [r2 f.a, r1 f.b, r1 f.c]) fun e s =>
    let m := e.first
    let ctx := s.ctxOfGroup e.group
    let base := (s.pair m f.a.toNat).toNat
    let len := (s.reg m f.b.toNat).toNat
    let c := s.reg m f.c.toNat
    let k := f.d.toNat % 64
    let blk := s.blockOf m.wid
    let r : Region := ⟨BitVec.ofNat 56 (s.aliasOf blk base), len, c.toNat % 256, c.getLsbD 8, ((s.block? blk).map (·.launch)).getD 0, blk, e.core⟩
    let inLimits := base % 128 == 0 && len % 128 == 0 && decide (128 ≤ len) && decide (len ≤ 0x40000000) && c.toNat % 256 != 0 && c.toNat / 512 == 0
    match s.ctx? ctx with
    | none => .done s
    | some x =>
      if !inLimits || !s.regionFits blk base len || (Tab.get? x.regions k).isSome || x.regions.any (fun (_, y) => s.regionsMeet r y) then
        .fault (allCauses e.exec Code.crState 0) 0
      else .done (s.modCtx ctx fun x => { x with regions := Tab.put x.regions k r })

/-! ### Releasing a region (R215) -/

/-- The scratchpad lines of a region that hold a count, with their addresses. -/
def State.regionScratch (s : State) (r : Region) : List (Nat × Nat) :=
  let p := s.position r.block r.base.toNat
  if !p.1 || (s.block? r.block).any (·.saved) then []
  else (s.mem.scratch.filter fun (l, x) => decide (p.2 / 128 ≤ l) && decide (l < (p.2 + r.len) / 128) && decide (x.count ≠ .uncounted)).map
    fun (l, _) => (l, r.base.toNat + (l - p.2 / 128) * 128)

/-- R215: a region is released: its live lines are reported, and its lines become uncounted. Answers how many were live. -/
def State.releaseRegion (s : State) (ctx k core : Nat) (place? : Option Nat) : Nat × State :=
  match (s.ctx? ctx).bind fun c => Tab.get? c.regions k with
  | none => (0, s)
  | some r =>
    let inPads := s.regionScratch r
    let globals := s.mem.counted.filter fun (_, c) => c.ctx == ctx && c.region == k
    let livePads := inPads.filterMap fun (l, va) => match (s.scratchLine l).count with | .live n => some (va, n) | _ => none
    let liveGlobals := (globals.filter fun (_, c) => c.count != 0).map fun (_, c) => (c.va, c.count)
    let s1 := (livePads ++ liveGlobals).foldl (fun t (va, n) => t.recordUnder core ctx place? (va / 128) n k) s
    let s2 := inPads.foldl (fun t (l, _) =>
      t.putScratch l { t.scratchLine l with count := .uncounted, data := Config.releasedLine (s.turn * 2 ^ 23 + l) }) s1
    let s3 : State := { s2 with mem := { s2.mem with counted := s2.mem.counted.filter fun (_, c) => !(c.ctx == ctx && c.region == k) } }
    (livePads.length + liveGlobals.length, s3.modCtx ctx fun c => { c with regions := Tab.del c.regions k })

/-- R210, R215: the regions of a context that meet a condition are released without a fault; the recorder is that of the
declaring block's core. -/
def State.releaseRegions (s : State) (ctx : Nat) (p : Region → Bool) : State :=
  match s.ctx? ctx with
  | none => s
  | some c => (c.regions.filter fun (_, r) => p r).foldl (fun t (k, r) => (t.releaseRegion ctx k r.core none).2) s

/-! ### Ranges of global lines (R224) -/

/-- The physical address behind a virtual one, whatever the page allows; none where no page is mapped. -/
def State.mappedAt (s : State) (core ctx va : Nat) : Option Nat :=
  [Access.read, .write, .fetch].findSome? fun k => match (s.translate core ctx va k).1 with | .ok pa => some pa | _ => none

/-- The physical lines of a range, page by page: first line and number of lines. Pages that are not mapped are left out. -/
def State.rangeLines (s : State) (core ctx base len : Nat) : List (Nat × Nat) :=
  (List.range ((base + len - 1) / 65536 + 1 - base / 65536)).filterMap fun i =>
    let lo := max base ((base / 65536 + i) * 65536)
    let hi := min (base + len) ((base / 65536 + i + 1) * 65536)
    if lo < scratchBase then (s.mappedAt core ctx lo).map fun pa => (pa / 128, (hi - lo) / 128) else none

def inRanges (l : List (Nat × Nat)) (line : Nat) : Bool := l.any fun (a, n) => decide (a ≤ line) && decide (line < a + n)

/-- R224, R225: the base and length of an operand pair; none when they are out of range. -/
def State.rangeOperand (s : State) (m : Member) (f : XM) : Option (Nat × Nat) :=
  let base := (s.pair m f.a.toNat).toNat
  let len := (s.reg m f.b.toNat).toNat
  if base % 128 = 0 ∧ len % 128 = 0 ∧ 128 ≤ len ∧ len ≤ 2 ^ 24 ∧ base + len ≤ 2 ^ 56 then some (base, len) else none

/-- The lines of a range of which a point holds a copy. -/
def State.copiesIn (s : State) (point : Nat) (l : List (Nat × Nat)) : List Nat :=
  (s.mem.copies.filter fun (k, _) => k / 2 ^ 49 == point && inRanges l (k % 2 ^ 49)).map fun (k, _) => k % 2 ^ 49

def State.dirtyIn (s : State) (point : Nat) (l : List (Nat × Nat)) : List Nat := (s.dirtyLines point).filter (inRanges l)

/-- R224: the dirty bytes of a range go to the point of coherence of a scope. None while a home is not ready. -/
def State.cleanRange (s : State) (core ctx : Nat) (r : Reach) (l : List (Nat × Nat)) : Option State × State :=
  let p := s.corePoint core
  match r with
  | .none | .point => (some s, s)
  | .slice => s.writeBackSlice p ctx none (s.dirtyIn p l)
  | .home =>
    match s.writeBackAll p none true (s.dirtyIn p l) with
    | (none, t) => (none, t)
    | (some t, _) => t.writeBackAll (l2Point (dieOf core)) none true (t.dirtyIn (l2Point (dieOf core)) l)

/-- R224: the copies of a range between a core and the point of coherence are discarded. A lease of the die ends first. -/
def State.discardRange (s : State) (core : Nat) (r : Reach) (l : List (Nat × Nat)) : State :=
  let drop (t : State) (p : Nat) : State := (t.copiesIn p l).foldl (fun u line =>
    (if 3000 ≤ p ∧ (u.home line).dir = .diex (p - 3000) then u.recall line else u).dropCopy p line) t
  match r with
  | .none | .point => s
  | .slice => drop s (s.corePoint core)
  | .home => drop (drop s (s.corePoint core)) (l2Point (dieOf core))

/-- R224: INVL and WBL, performed whole at issue (log entry 17). -/
def opRange (f : XM) (discard : Bool) (s : State) : State :=
  s.issue (shapeXM f [r2 f.a, r1 f.b]) fun e s =>
    match s.rangeOperand e.first f with
    | none => .fault (allCauses e.exec Code.crState 0) 0
    | some (base, len) =>
      let ctx := s.ctxOfGroup e.group
      let l := s.rangeLines e.core ctx base len
      let r := s.reach ctx e.core f.scope.toNat
      match s.cleanRange e.core ctx r l with
      | (none, t) => .hold t
      | (some t, _) => .done (if discard then t.discardRange e.core r l else t)

/-! ### LHINT (R225) -/

/-- What is left of an override when a range is taken out of it. -/
def LeaseHint.minus (h : LeaseHint) (base len : Nat) : List LeaseHint :=
  if h.base + h.len ≤ base ∨ base + len ≤ h.base then [h]
  else (if h.base < base then [⟨h.base, base - h.base, h.cls⟩] else []) ++
    (if base + len < h.base + h.len then [⟨base + len, h.base + h.len - (base + len), h.cls⟩] else [])

def opLhint (f : XM) (s : State) : State :=
  s.issue (shapeXM f [r2 f.a, r1 f.b]) fun e s =>
    match s.rangeOperand e.first f with
    | none => .fault (allCauses e.exec Code.crState 0) 0
    | some (base, len) =>
      .done (s.modCtx (s.ctxOfGroup e.group) fun c =>
        { c with hints := (if f.var.getLsbD 2 then c.hints.flatMap fun h => h.minus base len
                           else ⟨base, len, f.var.toNat % 4⟩ :: c.hints).take 16 })

/-! ### PRES (R226) -/

def opPres (f : XM) (s : State) : State :=
  let op := f.var.toNat % 4
  s.issue (shapeXM f ((if op = 0 then [r1 f.d] else []) ++ [r1 f.a, r1 f.b])) fun e s =>
    let m := e.first
    let off := (s.reg m f.a.toNat).toNat
    let n := (s.reg m f.b.toNat).toNat
    let addr := BitVec.ofNat 64 (aliasBase + off)
    if off % 128 ≠ 0 then .fault (allCauses e.exec Code.misalign addr) 0
    else match s.block? (s.blockOf m.wid) with
    | none => .done s
    | some b =>
      if n = 0 ∨ 32 < n ∨ b.lines * 128 < off + n * 128 then .fault (allCauses e.exec Code.scratchRange addr) 0
      else
        let first := b.core * 4096 + b.firstLine + off / 128
        let lines := (List.range n).map (first + ·)
        if op = 0 then
          let v := (List.range n).foldl (fun w i => if (s.scratchLine (first + i)).present then w ||| BitVec.twoPow 32 i else w) 0
          .done (e.write s f.d.toNat fun _ => v)
        else .done (lines.foldl (fun t l => t.putScratch l { t.scratchLine l with present := op == 1 }) s)

/-! ### Meanings -/

/-- CRDECL, R222. -/
def execCrdecl (f : XM) (s : State) : Out := .next (opCrdecl f s)

/-- INVL, R224. -/
def execInvl (f : XM) (s : State) : Out := .next (opRange f true s)

/-- WBL, R224. -/
def execWbl (f : XM) (s : State) : Out := .next (opRange f false s)

/-- LHINT, R225. -/
def execLhint (f : XM) (s : State) : Out := .next (opLhint f s)

/-- PRES, R226. -/
def execPres (f : XM) (s : State) : Out := .next (opPres f s)

end Sys2Proof.Machine
end

