-- ==== Sys2Proof/Machine/Commands.lean ====
section
/-! DEFINITION. What the engine commands say: the engines (R265), descriptors and their rules (R273 to R275, R277), the bytes a
command moves and the lines it writes. -/

namespace Sys2Proof.Machine

open Sys2Proof

/-! ### Engines (R265) -/

def copyEngine (core : Nat) : Nat := dieOf core * 64 + 4 * (clusterOf core % 4) + core % 96 % 4
def gatherEngine (core : Nat) : Nat := dieOf core * 64 + 16 + clusterOf core % 4
def collectiveEngine (core : Nat) : Nat := dieOf core * 64 + 32

def engineExists (eng : Nat) : Bool := decide (eng < 256) && (decide (eng % 64 < 20) || eng % 64 == 32 || eng % 64 == 48)

def queueKey (eng ctx : Nat) : Nat := eng * 4096 + ctx

def EngineQueue.empty : EngineQueue := ⟨0, [], [], [], none, false⟩

def State.engineQueue (s : State) (k : Nat) : EngineQueue := Tab.getD s.engines k EngineQueue.empty

def State.modEngine (s : State) (k : Nat) (f : EngineQueue → EngineQueue) : State :=
  { s with engines := Tab.put s.engines k (f (s.engineQueue k)) }

/-! ### Addresses -/

/-- An address of a block with the own-block alias replaced by the core-slot name. -/
def State.canon (s : State) (blk va : Nat) : Nat :=
  if va < scratchBase then va
  else match s.block? blk with
    | some b => scratchBase + ((s.position blk va).2 - clusterOf b.core * 96 * 2 ^ 19)
    | none => va

/-- The byte of a scratchpad that a core-slot address names in a core's cluster. -/
def slotByte (core va : Nat) : Nat := clusterOf core * 96 * 2 ^ 19 + (va - scratchBase)

/-- A position as R210 compares it. -/
def positionOf (core va : Nat) : Bool × Nat := if scratchBase ≤ va then (true, slotByte core va) else (false, va)

/-- R273: what is wrong with a side that reaches from a byte up to before another: none, or the cause and its address. -/
def State.sideStop (s : State) (blk lo hi : Nat) : Option (BitVec 16 × Nat) :=
  if hi ≤ lo ∨ hi ≤ scratchBase then none
  else if lo < scratchBase ∨ 2 ^ 56 < hi then some (Code.engState, 0)
  else ((List.range ((hi - 1) / 128 + 1 - lo / 128)).find? fun i => (s.scratchAt blk ((lo / 128 + i) * 128)).isNone).map
    fun i => (Code.scratchRange, max lo ((lo / 128 + i) * 128))

/-- R212: every line of a range lies in a declared region. -/
def State.regionsCover (s : State) (ctx blk lo hi : Nat) : Bool :=
  (List.range ((hi + 127) / 128 - lo / 128)).all fun i => (s.regionAt ctx (s.position blk ((lo / 128 + i) * 128))).isSome

/-! ### CPT (R273) -/

structure CptDim where
  start : Int
  ext : Nat
  boxm : Nat
  sstr : Nat
  dstr : Nat
  deriving DecidableEq, Repr

def cptField (d : BitVec 1024) (hi lo : Nat) : Nat := field d.toNat hi lo
def cptSize (d : BitVec 1024) : Nat := 2 ^ cptField d 130 128
def cptSrc (d : BitVec 1024) : Nat := cptField d 55 0
def cptDst (d : BitVec 1024) : Nat := cptField d 119 64
def cptCount (d : BitVec 1024) : Nat := cptField d 143 136

def cptDim (d : BitVec 1024) (i : Nat) : CptDim :=
  let b := 192 + 160 * i
  ⟨(BitVec.ofNat 32 (cptField d (b + 31) b)).toInt, cptField d (b + 63) (b + 32), cptField d (b + 79) (b + 64),
   cptField d (b + 127) (b + 80), cptField d (b + 159) (b + 128)⟩

def cptDims (d : BitVec 1024) : List CptDim := (List.range (cptField d 133 131)).map (cptDim d)

/-- Bytes in the box. -/
def cptBytes (d : BitVec 1024) : Nat := (cptDims d).foldl (fun n x => n * (x.boxm + 1)) (cptSize d)

def cptOk (d : BitVec 1024) (ring cnt : Bool) : Bool :=
  let n := cptField d 133 131
  let z := cptSize d
  cptField d 1023 992 == 0 && cptField d 159 144 == 0 && cptField d 135 134 == 0 && cptField d 127 120 == 0 && cptField d 63 56 == 0 &&
  decide (1 ≤ n) && decide (n ≤ 5) && decide (cptField d 130 128 ≤ 4) && cptField d 991 (192 + 160 * n) == 0 &&
  (cptDims d).all (fun x => x.ext != 0 && x.sstr % z == 0 && x.dstr % z == 0) &&
  cptSrc d % z == 0 && cptDst d % z == 0 && decide (cptBytes d ≤ 2 ^ 24) && (!ring || cptDst d == 0) && (cnt || cptCount d == 0)

/-- Bytes from the lowest to the highest address that the box reaches at its destination, base 0. -/
def cptSpan (d : BitVec 1024) : Nat := (cptDims d).foldl (fun n x => n + x.boxm * x.dstr) (cptSize d)

/-- The least and greatest source coordinate inside an extent. -/
def CptDim.inside (x : CptDim) : Option (Nat × Nat) :=
  let lo := max 0 x.start
  let hi := min (x.ext - 1 : Int) (x.start + x.boxm)
  if lo ≤ hi then some (lo.toNat, hi.toNat) else none

/-- First byte reached at the source, and the byte after the last; equal when none is. -/
def cptSource (d : BitVec 1024) : Nat × Nat :=
  (cptDims d).foldl (fun (r : Option (Nat × Nat)) x =>
    match r, x.inside with
    | some (lo, hi), some (a, b) => some (lo + a * x.sstr, hi + b * x.sstr)
    | _, _ => none) (some (cptSrc d, cptSrc d + cptSize d)) |>.getD (0, 0)

/-- R273 under .cnt: the destination is one dense run of whole lines. -/
def cptDense (d : BitVec 1024) (base : Nat) : Bool :=
  base % 128 == 0 && cptBytes d % 128 == 0 &&
  ((cptDims d).foldl (fun (ok, n) x => (ok && x.dstr == n, n * (x.boxm + 1))) (true, cptSize d)).1

/-- The elements of a box: destination offset, and source offset unless it is padding. -/
def boxPoints : List CptDim → List (Nat × Option Nat)
  | [] => [(0, some 0)]
  | x :: rest => (List.range (x.boxm + 1)).flatMap fun (b : Nat) =>
      let i : Int := x.start + (b : Int)
      (boxPoints rest).map fun (o, a) => (o + b * x.dstr, if i < 0 ∨ (x.ext : Int) ≤ i then none else a.map (· + i.toNat * x.sstr))

/-- R273 PAD: the element. -/
def cptPad (d : BitVec 1024) : Nat := cptField d 191 160 * (1 + 2 ^ 32 + 2 ^ 64 + 2 ^ 96) % 256 ^ cptSize d

/-! ### CPM (R274) -/

def cpmField (d : BitVec 256) (hi lo : Nat) : Nat := field d.toNat hi lo
def cpmLines (d : BitVec 256) : Nat := cpmField d 79 64 + 1
def cpmOff (d : BitVec 256) : Nat := cpmField d 98 80
def cpmSrc (d : BitVec 256) : Nat := cpmField d 55 0
def cpmCount (d : BitVec 256) : Nat := cpmField d 111 104
def cpmCores (d : BitVec 256) : List Nat := (List.range 96).filter fun c => d.getLsbD (160 + c)

/-- R274, whose CNT has no rule without .cnt. -/
def cpmOk (d : BitVec 256) : Bool :=
  !(cpmCores d).isEmpty && cpmField d 159 112 == 0 && cpmField d 103 99 == 0 && cpmField d 63 56 == 0 && decide (cpmLines d ≤ 512) &&
  cpmOff d % 128 == 0 && cpmSrc d % 128 == 0 && decide (cpmSrc d + cpmLines d * 128 ≤ scratchBase)

/-- The core-slot address of a line in each destination core. -/
def cpmLine (d : BitVec 256) (c l : Nat) : Nat := scratchBase + c * 2 ^ 19 + cpmOff d + 128 * l

/-! ### GATH and SCAT (R275) -/

def gathField (d : BitVec 512) (hi lo : Nat) : Nat := field d.toNat hi lo
def gathType (d : BitVec 512) : Nat := gathField d 366 363
def gathOp (d : BitVec 512) : Nat := gathField d 361 360
def gathOrdered (d : BitVec 512) : Bool := d.getLsbD 362
def gathCount (d : BitVec 512) : Nat := gathField d 359 352
def gathPad (d : BitVec 512) : Nat := gathField d 351 320
def gathXstr (d : BitVec 512) : Nat := gathField d 319 288
def gathTstr (d : BitVec 512) : Nat := gathField d 287 256
def gathRows (d : BitVec 512) : Nat := gathField d 255 224
def gathN (d : BitVec 512) : Nat := gathField d 223 208
def gathRowb (d : BitVec 512) : Nat := gathField d 207 192
def gathX (d : BitVec 512) : Nat := gathField d 183 128
def gathI (d : BitVec 512) : Nat := gathField d 119 64
def gathT (d : BitVec 512) : Nat := gathField d 55 0

def gathOk (d : BitVec 512) (scat ring cnt : Bool) : Bool :=
  gathField d 511 367 == 0 && gathField d 191 184 == 0 && gathField d 127 120 == 0 && gathField d 63 56 == 0 &&
  (if scat then gathPad d == 0 && gathCount d == 0 && (if gathOp d = 0 then gathType d == 0 else [0, 1, 2, 6].contains (gathType d))
   else gathType d == 0 && !gathOrdered d && gathOp d == 0 && (cnt || gathCount d == 0)) &&
  gathXstr d % 4 == 0 && decide (gathRowb d ≤ gathXstr d) && gathTstr d % 4 == 0 && decide (gathRowb d ≤ gathTstr d) &&
  gathRows d != 0 && gathN d != 0 && gathRowb d % 4 == 0 && decide (4 ≤ gathRowb d) && decide (gathRowb d ≤ 32768) &&
  (!ring || gathX d == 0) && gathI d % 4 == 0 && gathT d % 4 == 0

/-- Bytes of the dense side. -/
def gathSpan (d : BitVec 512) : Nat := (gathN d - 1) * gathXstr d + gathRowb d

/-- The .cnt rules of CPT on the dense side. -/
def gathDense (d : BitVec 512) (base : Nat) : Bool :=
  base % 128 == 0 && gathXstr d == gathRowb d && gathN d * gathRowb d % 128 == 0

/-! ### COLL (R277, R278) -/

def collField (d : BitVec 512) (hi lo : Nat) : Nat := field d.toNat hi lo
def collTag (d : BitVec 512) : Nat := collField d 223 192
def collCount (d : BitVec 512) : Nat := collField d 191 160
def collDies (d : BitVec 512) : Nat := collField d 139 136
def collType (d : BitVec 512) : Nat := collField d 135 132
def collRed (d : BitVec 512) : Nat := collField d 131 130
def collKind (d : BitVec 512) : Nat := collField d 129 128
def collRbuf (d : BitVec 512) : Nat := collField d 119 64
def collSbuf (d : BitVec 512) : Nat := collField d 55 0

/-- Bytes of an element and of a chunk. -/
def collElement (d : BitVec 512) : Nat := if collType d = 6 then 2 else 4
def collChunkBytes (d : BitVec 512) : Nat := collCount d * collElement d

/-- R278: the participants, as package and die, by rank. -/
def State.participantsOf (s : State) (ctx scope : Nat) (d : BitVec 512) : List (Nat × Nat) :=
  let own := s.sys.causkid.toNat % 512
  if scope = 4 then
    ((List.range 512).filter fun p => p == own || Config.domainPackage p).flatMap fun p =>
      ((List.range 4).filter fun x => (collDies d).testBit x).map fun x => (p, x)
  else ((List.range 4).filter fun x => (List.range 384).any fun c => (s.groupCores ctx (scope - 32)).getLsbD (x * 384 + c)).map fun x => (own, x)

/-- Chunks in SBUF and in RBUF, of n participants. -/
def collSent (d : BitVec 512) (n : Nat) : Nat := if collKind d = 1 ∨ collKind d = 3 then n else 1
def collReceived (d : BitVec 512) (n : Nat) : Nat := if collKind d = 2 ∨ collKind d = 3 then n else 1

def collOk (d : BitVec 512) (scope : Nat) : Bool :=
  collField d 511 224 == 0 && collField d 159 140 == 0 && collField d 127 120 == 0 && collField d 63 56 == 0 &&
  decide (1 ≤ collCount d) && decide (collCount d ≤ 2 ^ 28) && [0, 2, 6].contains (collType d) && decide (collRed d ≤ 2) &&
  (decide (collKind d < 2) || collRed d == 0) && collRbuf d % 128 == 0 && collSbuf d % 128 == 0 &&
  (if scope = 4 then collDies d != 0 else decide (32 ≤ scope) && collDies d == 0)

/-- The fields that the participants' descriptors must share, and the context. -/
def collAgree (d : BitVec 512) (ctx : Nat) : BitVec 64 :=
  BitVec.ofNat 64 (collCount d + place 32 (collField d 135 128) + place 40 ctx)

/-! ### What a command moves -/

/-- n bytes at a destination, from a source address or of a padding value. -/
structure Piece where
  dst : Nat
  src : Option Nat
  n : Nat
  pad : Nat
  deriving DecidableEq, Repr

/-- R272 to R275: the pieces of a command, by core-slot names; later pieces stand over earlier ones. `idx` is the index array. -/
def State.pieces (s : State) (blk : Nat) (c : Command) (idx : List Nat) : List Piece :=
  let at_ := s.canon blk
  match c with
  | .cpa elems n => elems.map fun (a, b) => ⟨at_ b.toNat, some (at_ a.toNat), n, 0⟩
  | .cpt d base =>
    (boxPoints (cptDims d)).map fun (o, a) => ⟨at_ (base + o), a.map fun x => at_ (cptSrc d + x), cptSize d, cptPad d⟩
  | .cpm d => (cpmCores d).flatMap fun c => (List.range (cpmLines d)).map fun l => ⟨cpmLine d c l, some (cpmSrc d + 128 * l), 128, 0⟩
  | .gath d base =>
    (List.range (gathN d)).flatMap fun i =>
      let x := idx.getD i 0
      (List.range (gathRowb d / 4)).map fun w =>
        ⟨at_ (base + i * gathXstr d + 4 * w), if x < gathRows d then some (at_ (gathT d + x * gathTstr d + 4 * w)) else none, 4, gathPad d⟩
  | .scat d =>
    (List.range (gathN d)).flatMap fun i =>
      let x := idx.getD i 0
      if x < gathRows d then (List.range (gathRowb d / 4)).map fun w =>
        ⟨at_ (gathT d + x * gathTstr d + 4 * w), some (at_ (gathX d + i * gathXstr d + 4 * w)), 4, 0⟩ else []
  | .coll .. | .prefb .. => []

/-- R204, R275: the lines (address / 128) of a SCAT's table that lie in a scratchpad and hold a byte of some row. -/
def State.scatPad (s : State) (t : Task) : List Nat :=
  match t.cmd with
  | .scat d =>
    let base := s.canon t.block (gathT d)
    if base < scratchBase then []
    else ((List.range (gathRows d * gathTstr d / 128 + 2)).map (base / 128 + ·)).filter fun l =>
      let r := min ((l * 128 + 127 - base) / gathTstr d) (gathRows d - 1)
      decide (base < l * 128 + 128) && decide (l * 128 < base + r * gathTstr d + gathRowb d)
  | _ => []

/-- The lines (address / 128) that a command may write, but for the rows of SCAT, which its indices name. -/
def State.destLines (s : State) (t : Task) : List Nat :=
  match t.cmd with
  | .coll d scope =>
    let n := collReceived d (s.participantsOf t.ctx scope d).length
    (List.range ((n * collChunkBytes d + 127) / 128)).map (collRbuf d / 128 + ·)
  | .prefb base len => (List.range (len / 128)).map (base.toNat / 128 + ·)
  | .scat _ => []
  | c => distinct ((s.pieces t.block c []).flatMap fun p => [p.dst / 128, (p.dst + p.n - 1) / 128])

end Sys2Proof.Machine
end

