-- ==== Sys2Proof/Machine/Tasks.lean ====
section
/-! DEFINITION. Issuing engine commands (R267, R271 to R277, R227), TKWAIT (R279) and CRREL (R223). -/

namespace Sys2Proof.Machine

open Sys2Proof

/-! ### Queueing a command (R267) -/

/-- What an instruction orders: the engine and the command, the flag it counts, the registers that take its token, the barrier
objects and the ring named, and the scratchpad lines whose presence bits it clears. -/
structure Order where
  eng : Nat
  cmd : Command
  flag : Option Nat
  token : Option Nat
  bars : List (Nat × Nat)
  ring : Option (Nat × Nat)
  cnt : Option Nat
  fresh : Bool
  scope : Nat
  deriving DecidableEq, Repr

/-- R266. -/
def tokenOf (eng ctx seq : Nat) : DWord := BitVec.ofNat 64 (place 44 eng + place 32 ctx + seq % 2 ^ 32)

def State.setPresence (s : State) (core line : Nat) (v : Bool) : State :=
  if scratchBase ≤ line * 128 then
    let l := slotByte core (line * 128) / 128
    s.putScratch l { s.scratchLine l with present := v }
  else s

/-- R204, R267: the presence bit of a destination line is cleared when the line lies in a scratchpad. -/
def State.clearPresence (s : State) (core line : Nat) : State := s.setPresence core line false

/-- R278: the collective of its scope and tag that a COLL is on its queue, and the counts of the queue after it. -/
def EngineQueue.collNumber (q : EngineQueue) (c : Command) : Nat × Tab Nat :=
  match c with
  | .coll d scope =>
    let k := scope * 2 ^ 32 + collTag d
    let n := Tab.getD q.instances k 0
    (n, Tab.put q.instances k (n + 1))
  | _ => (0, q.instances)

/-- R267 steps 4 and 5, R281: the command is queued. Which rows a SCAT writes is known once it has read its indices: its issue clears the
presence bits of every scratchpad line of its table, and its start sets those again that it does not write (DESIGN CHOICE, log entry
118). -/
def Env.queue (e : Env) (s : State) (o : Order) : State :=
  let ctx := s.ctxOfGroup e.group
  let k := queueKey o.eng ctx
  let wids := warpsOf e.exec
  let q := s.engineQueue k
  let ts := wids.foldl (fun t w => maxs t (s.pts w)) (s.pts e.first.wid)
  let blk := s.blockOf e.first.wid
  let claimed : Option (Nat × Nat × Nat) := o.ring.map fun (c, off) => (c, off, (s.ring c off).cp)
  let task : Task :=
    { seq := BitVec.ofNat 32 q.nextSeq, cmd := o.cmd, ctx := ctx, core := e.core, block := blk,
      launch := ((s.block? blk).map (·.launch)).getD 0, wid := e.first.wid, flags := countsOf wids o.flag, ts := ts, scope := o.scope,
      fresh := o.fresh, cnt := o.cnt, bars := o.bars, ring := claimed, watched := s.watching e.first.wid, joined := false,
      started := false, writes := [], time := ts, status := 0, hit := none, stalled := false, inst := (q.collNumber o.cmd).1, rows := none,
      cleared := [] }
  let s1 := match o.ring with
    | some (c, off) => let r := s.ring c off; s.putRing c off { r with cp := r.cp + 1 }
    | none => s
  let cleared := (s.scatPad task).filter fun l => (s.scratchLine (slotByte e.core (l * 128) / 128)).present
  let s2 := (s.destLines task ++ cleared).foldl (fun t l => t.clearPresence e.core l) (s1.countUp wids o.flag)
  let s3 := s2.modEngine k fun q =>
    { q with nextSeq := (q.nextSeq + 1) % 2 ^ 32, tasks := q.tasks ++ [{ task with cleared := cleared }], instances := (q.collNumber o.cmd).2 }
  match o.token with
  | some r => e.writePair s3 r fun _ => tokenOf o.eng ctx q.nextSeq
  | none => s3

/-- R267 steps 3 to 5. -/
def Env.command (e : Env) (s : State) (o : Order) : Effect :=
  let ctx := s.ctxOfGroup e.group
  if 64 ≤ (s.engineQueue (queueKey o.eng ctx)).tasks.length then .wait (.retry (.engineRoom o.eng ctx)) false s
  else match o.ring with
  | some (c, off) => if (s.ring c off).full then .wait (.retry (.ringRoom c off)) false s else .done (e.queue s o)
  | none => .done (e.queue s o)

/-! ### Common operands (R271) -/

/-- Every executing thread with one cause. -/
def Env.stop (e : Env) (code : BitVec 16) (addr : Nat) : Effect := .fault (allCauses e.exec code (BitVec.ofNat 64 addr)) 0

def shapeCommand (f : XE) (regs : List (Nat × Nat)) : Shape :=
  { shapeXE f (regs ++ match f.var8.toNat % 4 with | 1 => [r2 f.c] | 2 => [r1 f.c] | _ => []) with flag := some f.fs }

def commandToken (f : XE) : Option Nat := if f.var8.toNat % 4 = 1 then some f.c.toNat else none
def commandCounts (f : XE) : Bool := f.var8.getLsbD 2
def commandFresh (f : XE) : Bool := f.var8.getLsbD 3
def commandRing (f : XE) : Bool := f.var8.getLsbD 4

/-- R271: the barrier objects of a command, at an own-block offset; none when they are not well formed. -/
def State.ownBars (s : State) (m : Member) (off : Nat) : Option (List (Nat × Nat)) := (s.barrierOf m (aliasBase + off)).map ([·])

/-- The barrier objects that an instruction names. -/
def State.commandBars (s : State) (f : XE) (m : Member) : Option (List (Nat × Nat)) :=
  if f.var8.toNat % 4 = 2 then s.ownBars m (s.reg m f.c.toNat).toNat else some []

/-- The first cause of a list that applies, in the order of R312; else the command. -/
def Env.checked (e : Env) (l : List (Option (BitVec 16 × Nat))) (x : Effect) : Effect :=
  match l.findSome? id with
  | some (c, a) => e.stop c a
  | none => x

def failsAs (c : BitVec 16) (b : Bool) : Option (BitVec 16 × Nat) := if b then some (c, 0) else none

def onlyCode (c : BitVec 16) (o : Option (BitVec 16 × Nat)) : Option (BitVec 16 × Nat) := o.filter fun x => x.1 == c

/-! ### CPA (R272) -/

def elementSize (f : XE) : Nat := 4 * 2 ^ (f.var8.toNat / 32 % 4)

/-- R272: the checks of one address. -/
def State.elementStop (s : State) (m : Member) (va n : Nat) : List Stop :=
  let a := BitVec.ofNat 64 va
  (if 2 ^ 56 ≤ va then [.fault Code.addrForm a] else []) ++ (if va % n ≠ 0 then [.fault Code.misalign a] else []) ++
  (if va < 2 ^ 56 ∧ scratchBase ≤ va ∧ (s.scratchAt (s.blockOf m.wid) va).isNone then [.fault Code.scratchRange a] else [])

/-- R272 .cnt: every destination line is written whole and lies in a declared region. -/
def State.cpaCovers (s : State) (ctx blk : Nat) (dsts : List Nat) (n : Nat) : Bool :=
  let at_ := dsts.map (s.canon blk)
  (distinct (at_.map (· / 128))).all fun l =>
    (List.range (128 / n)).all (fun i => at_.contains (l * 128 + i * n))
    && (dsts.all fun va => s.canon blk va / 128 != l || (s.regionAt ctx (s.position blk (va / 128 * 128))).isSome)

def opCpa (f : XE) (s : State) : State :=
  s.issue (shapeCommand f ([r2 f.a, r2 f.b] ++ if commandCounts f then [r1 f.d] else [])) fun e s =>
    let n := elementSize f
    let m := e.first
    let ctx := s.ctxOfGroup e.group
    let src (m : Member) : Nat := (s.pair m f.a.toNat).toNat
    let dst (m : Member) : Nat := (s.pair m f.b.toNat).toNat
    let stops := e.exec.flatMap fun m => (s.elementStop m (src m) n ++ s.elementStop m (dst m) n).map fun x => (m, x)
    let count := (s.reg m f.d.toNat).toNat
    match s.commandBars f m with
    | none => e.stop Code.objState 0
    | some bars =>
      match settle s s stops with
      | some x => x
      | none =>
        if commandCounts f && (decide (256 ≤ count) || !s.cpaCovers ctx (s.blockOf m.wid) (e.exec.map dst) n) then e.stop Code.crState 0
        else e.command s
          { eng := copyEngine e.core, cmd := .cpa (e.exec.map fun m => (s.pair m f.a.toNat, s.pair m f.b.toNat)) n, flag := e.flag f.fs,
            token := commandToken f, bars := bars, ring := none, cnt := if commandCounts f then some count else none,
            fresh := commandFresh f, scope := f.scope.toNat }

/-! ### CPT and GATH (R273, R275, R281) -/

/-- The ring that an instruction names, and where its next slot lies. -/
def State.commandSlot (s : State) (f : XE) (m : Member) : Option (Option (Nat × Nat × Ring)) :=
  if commandRing f then (s.ringOf m (aliasBase + (s.reg m f.d.toNat).toNat)).map some else some none

/-- The common checks and the command of CPT and GATH: `ok` and `span` by the descriptor, `base` its destination without a ring,
`sides` the other sides, `dense` the .cnt rule. -/
def Env.tileCommand (e : Env) (s : State) (f : XE) (eng : Nat) (ok : Bool) (span base count : Nat) (sides : List (Nat × Nat)) (dense : Nat → Bool)
    (cmd : Nat → Command) : Effect :=
  let m := e.first
  let blk := s.blockOf m.wid
  let ctx := s.ctxOfGroup e.group
  if !ok then e.stop Code.engState 0
  else match s.commandSlot f m, s.commandBars f m with
  | some slot, some bars =>
    let base := match slot with | some (_, _, r) => aliasBase + r.slotOffset r.cp | none => base
    let big := match slot with | some (_, _, r) => decide (r.lines * 128 < span) | none => false
    let stops := ((base, base + span) :: sides).map fun (lo, hi) => s.sideStop blk lo hi
    e.checked ([failsAs Code.engState big] ++ stops.map (onlyCode Code.engState) ++ stops ++
        [failsAs Code.crState (commandCounts f && !(dense base && s.regionsCover ctx blk base (base + span)))])
      (e.command s
        { eng := eng, cmd := cmd base, flag := e.flag f.fs, token := commandToken f, bars := bars,
          ring := slot.map fun (c, off, _) => (c, off), cnt := if commandCounts f then some count else none, fresh := commandFresh f,
          scope := f.scope.toNat })
  | _, _ => e.stop Code.objState 0

def ringRegs (f : XE) : List (Nat × Nat) := if commandRing f then [r1 f.d] else []

def opCpt (f : XE) (s : State) : State :=
  s.issue (shapeCommand f (r2 f.a :: ringRegs f)) fun e s =>
    match s.readObject e.first (s.pair e.first f.a.toNat).toNat 128 128 with
    | (.error x, t) => e.stopAll s t x
    | (.ok v, t) =>
      let d := BitVec.ofNat 1024 v
      e.tileCommand t f (copyEngine e.core) (cptOk d (commandRing f) (commandCounts f)) (cptSpan d) (cptDst d) (cptCount d) [cptSource d]
        (cptDense d) (.cpt d)

def opGath (f : XE) (s : State) : State :=
  s.issue (shapeCommand f (r2 f.a :: ringRegs f)) fun e s =>
    match s.readObject e.first (s.pair e.first f.a.toNat).toNat 64 64 with
    | (.error x, t) => e.stopAll s t x
    | (.ok v, t) =>
      let d := BitVec.ofNat 512 v
      e.tileCommand t f (gatherEngine e.core) (gathOk d false (commandRing f) (commandCounts f)) (gathSpan d) (gathX d) (gathCount d)
        [(gathT d, gathT d + gathRows d * gathTstr d), (gathI d, gathI d + 4 * gathN d)] (gathDense d) (.gath d)

def opScat (f : XE) (s : State) : State :=
  s.issue (shapeCommand f [r2 f.a]) fun e s =>
    match s.readObject e.first (s.pair e.first f.a.toNat).toNat 64 64 with
    | (.error x, t) => e.stopAll s t x
    | (.ok v, t) =>
      let d := BitVec.ofNat 512 v
      e.tileCommand t f (gatherEngine e.core) (gathOk d true false false) (gathSpan d) (gathX d) 0
        [(gathT d, gathT d + gathRows d * gathTstr d), (gathI d, gathI d + 4 * gathN d)] (fun _ => true) (fun _ => .scat d)

/-! ### CPM (R274) -/

/-- R274: the barrier object of each destination core, at a core-slot offset; none when one is not a well-formed object of the
context. -/
def State.cpmBars (s : State) (ctx core off : Nat) (cores : List Nat) : Option (List (Nat × Nat)) :=
  let at_ := cores.map fun c => (clusterOf core * 96 + c, off)
  if off % 16 = 0 ∧ off + 16 ≤ 2 ^ 19 ∧ (at_.all fun (c, o) =>
      (s.blockAt c o).any (fun (_, b) => (s.launch? b.launch).any fun l => l.ctx == ctx) && !s.barrierBad c o) then some at_
  else none

/-- R274 .cnt: a line lies in a region declared by the block that owns it. -/
def State.cpmCovered (s : State) (ctx core va : Nat) : Bool :=
  let p := slotByte core va
  match s.regionAt ctx (true, p), s.blockAt (p / 2 ^ 19) (p % 2 ^ 19) with
  | some (_, r), some (b, _) => r.block == b
  | _, _ => false

def opCpm (f : XE) (s : State) : State :=
  s.issue (shapeCommand f [r2 f.a]) fun e s =>
    let m := e.first
    match s.readObject m (s.pair m f.a.toNat).toNat 32 32 with
    | (.error x, t) => e.stopAll s t x
    | (.ok v, t) =>
      let d := BitVec.ofNat 256 v
      let ctx := s.ctxOfGroup e.group
      let blk := s.blockOf m.wid
      let lines := (cpmCores d).flatMap fun c => (List.range (cpmLines d)).map (cpmLine d c)
      let outside := decide (2 ^ 19 < cpmOff d + cpmLines d * 128) || lines.any fun va => (t.scratchAt blk va).isNone
      if !cpmOk d then e.stop Code.engState 0
      else match if f.var8.toNat % 4 = 2 then t.cpmBars ctx e.core (t.reg m f.c.toNat).toNat (cpmCores d) else some [] with
      | none => e.stop Code.objState 0
      | some bars =>
        e.checked [failsAs Code.scratchRange outside, failsAs Code.crState (commandCounts f && !lines.all (t.cpmCovered ctx e.core))]
          (e.command t
            { eng := copyEngine e.core, cmd := .cpm d, flag := e.flag f.fs, token := commandToken f, bars := bars, ring := none,
              cnt := if commandCounts f then some (cpmCount d) else none, fresh := commandFresh f, scope := f.scope.toNat })

/-! ### COLL (R277) -/

def opColl (f : XE) (s : State) : State :=
  s.issue (shapeCommand f [r2 f.a]) fun e s =>
    let m := e.first
    match s.readObject m (s.pair m f.a.toNat).toNat 64 64 with
    | (.error x, t) => e.stopAll s t x
    | (.ok v, t) =>
      let d := BitVec.ofNat 512 v
      let ctx := s.ctxOfGroup e.group
      let scope := f.scope.toNat
      let ps := t.participantsOf ctx scope d
      let z := collChunkBytes d
      let fits := ps.contains (t.sys.causkid.toNat % 512, dieOf e.core) && decide (collSbuf d + collSent d ps.length * z ≤ scratchBase) &&
        decide (collRbuf d + collReceived d ps.length * z ≤ scratchBase)
      let bars := t.commandBars f m
      e.checked [failsAs Code.engState (!collOk d scope || !fits), failsAs Code.objState bars.isNone]
        (e.command t
          { eng := collectiveEngine e.core, cmd := .coll d scope, flag := e.flag f.fs, token := commandToken f, bars := bars.getD [],
            ring := none, cnt := none, fresh := false, scope := scope })

/-! ### PREFB (R227) -/

/-- R227. Without .cnt the register C holds zero, and a field C of zero names no register (log entry 43). -/
def opPrefb (f : XM) (s : State) : State :=
  let cnt := f.var.getLsbD 0
  let bar := f.var.getLsbD 1
  s.issue (shapeXM f [if bar then r1 f.d else r2 f.d, r2 f.a, r1 f.b, r1 f.c]) fun e s =>
    let m := e.first
    let ctx := s.ctxOfGroup e.group
    let c := if cnt || f.c != 0 then (s.reg m f.c.toNat).toNat else 0
    let bars := if bar then s.ownBars m (s.reg m f.d.toNat).toNat else some []
    match bars, s.rangeOperand m f with
    | none, _ => e.stop Code.objState 0
    | _, none => e.stop Code.crState 0
    | some bars, some (base, len) =>
      if scratchBase < base + len then e.stop Code.crState 0
      else match e.watchStop s m base len true false with
      | some x => e.stopAll s s x
      | none =>
      if 256 ≤ c ∨ (!cnt ∧ c ≠ 0) ∨ (cnt ∧ !s.regionsCover ctx (s.blockOf m.wid) base (base + len)) then
        e.stop Code.crState 0
      else e.command s
        { eng := copyEngine e.core, cmd := .prefb (BitVec.ofNat 64 base) len, flag := none, token := if bar then none else some f.d.toNat,
          bars := bars, ring := none, cnt := if cnt then some c else none, fresh := true, scope := 3 }

/-! ### TKWAIT (R279) -/

/-- R279: the token of a thread is well formed and names a command that its queue has taken. -/
def State.tokenOk (s : State) (ctx : Nat) (t : DWord) : Bool :=
  let eng := field t.toNat 51 44
  let seq := field t.toNat 31 0
  let next := (s.engineQueue (queueKey eng ctx)).nextSeq
  field t.toNat 63 52 == 0 && field t.toNat 43 32 == ctx && engineExists eng && !serialAfter 32 seq ((next + 2 ^ 32 - 1) % 2 ^ 32)

def opTkwait (f : XE) (s : State) : State :=
  s.issue (shapeXE f ((if f.var8.getLsbD 0 then [r1 f.d] else []) ++ [r2 f.a])) fun e s =>
    let ctx := s.ctxOfGroup e.group
    let bad := e.exec.filter fun m => !s.tokenOk ctx (s.pair m f.a.toNat)
    if bad.isEmpty then .wait (.tkwait f) false s else .fault (allCauses bad Code.engState 0) 0

/-- R269: status and completion time of the command that a token names; none while it has not completed. -/
def State.tokenResult (s : State) (ctx : Nat) (t : DWord) : Option (BitVec 32 × Option LTime) :=
  let eng := field t.toNat 51 44
  let q := s.engineQueue (queueKey eng ctx)
  let seq := field t.toNat 31 0
  if (q.tasks.any fun x => x.seq.toNat == seq) || s.migrations.any fun m => m.die * 64 + 48 == eng && m.ctx == ctx && m.seq.toNat == seq then none
  else if 65536 < (q.nextSeq + 2 ^ 33 - 1 - seq) % 2 ^ 32 then some (0xFF, q.expired)
  else match Tab.get? q.done seq with
  | some (st, x) => some (st, some x)
  | none => some (0xFF, q.expired)

/-- TKWAIT: one attempt. -/
def State.tryTkwait (s : State) (id : Nat) (x : Wait) (f : XE) : State :=
  let exec := s.waitExec x f.guard f.sense
  let results := exec.map fun m => (m, s.tokenResult (s.ctxOf m.wid) (s.pair m f.a.toNat))
  if results.any fun (_, r) => r.isNone then s
  else (results.foldl (fun t (m, r) =>
    match r with
    | some (st, time) =>
      let t1 := match time with | some c => t.acquireAt m.wid c | none => t.acquire m.wid
      if f.var8.getLsbD 0 then t1.setReg m f.d.toNat st else t1
    | none => t) s).endWait id

/-! ### CRREL (R223) -/

/-- R223: a counted fill of a command has a destination line in a region. -/
def State.fillsRegion (s : State) (t : Task) (k : Nat) : Bool :=
  t.cnt.isSome && (s.destLines t).any fun l => (s.regionAt t.ctx (positionOf t.core (l * 128))).any fun r => r.1 == k

def opCrrel (f : XM) (s : State) : State :=
  s.issue (shapeXM f []) fun e s =>
    let ctx := s.ctxOfGroup e.group
    let k := f.d.toNat % 64
    match (s.ctx? ctx).bind fun c => Tab.get? c.regions k with
    | none => e.stop Code.crState 0
    | some _ =>
      let fills := (s.allTasks.filter fun (_, t) => t.ctx == ctx && s.fillsRegion t k).map fun (q, t) => (q, t.seq.toNat)
      .wait (.crrel f fills) false s

/-- CRREL: one attempt; the release is complete before UNDERREAD is raised (R215). -/
def State.tryCrrel (s : State) (id : Nat) (x : Wait) (f : XM) (fills : List (Nat × Nat)) : State :=
  if fills.any fun (k, seq) => (s.engineQueue k).tasks.any fun t => t.seq.toNat == seq then s
  else match s.waitExec x f.guard f.sense with
  | [] => s.endWait id
  | m :: rest =>
    let ctx := s.ctxOf m.wid
    let k := f.d.toNat % 64
    let fault := ((s.ctx? ctx).bind fun c => Tab.get? c.regions k).any (·.ufault)
    let (n, t) := s.releaseRegion ctx k (s.coreOf m.wid) (some m.wid)
    if fault && n != 0 then t.faultWait id x (allCauses (m :: rest) Code.underRead 0) 0 else t.endWait id

/-! ### Meanings -/

/-- CPA, R272. -/
def execCpa (f : XE) (s : State) : Out := .next (opCpa f s)

/-- CPT, R273. -/
def execCpt (f : XE) (s : State) : Out := .next (opCpt f s)

/-- CPM, R274. -/
def execCpm (f : XE) (s : State) : Out := .next (opCpm f s)

/-- GATH, R275. -/
def execGath (f : XE) (s : State) : Out := .next (opGath f s)

/-- SCAT, R275, R276. -/
def execScat (f : XE) (s : State) : Out := .next (opScat f s)

/-- COLL, R277. -/
def execColl (f : XE) (s : State) : Out := .next (opColl f s)

/-- PREFB, R227. -/
def execPrefb (f : XM) (s : State) : Out := .next (opPrefb f s)

/-- TKWAIT, R279. -/
def execTkwait (f : XE) (s : State) : Out := .next (opTkwait f s)

/-- CRREL, R223. -/
def execCrrel (f : XM) (s : State) : Out := .next (opCrrel f s)

end Sys2Proof.Machine
end

