-- ==== Sys2Proof/Machine/EngineRun.lean ====
section
/-! DEFINITION. How queued engine commands run (R242, R267 to R270, R276, R278, R353): start, line writes, completion, aborts and
the meeting of collectives. -/

namespace Sys2Proof.Machine

open Sys2Proof

/-! ### Statuses (R269) -/

namespace Status

def dataErr : BitVec 32 := 1
def skipped : BitVec 32 := 2
def peerLost : BitVec 32 := 3
def tfault : BitVec 32 := 4
def overRead : BitVec 32 := 5
def mismatch : BitVec 32 := 6

end Status

/-- R269: the statuses of a command that writes nothing further. -/
def abortStatus (st : BitVec 32) : Bool := st == 1 || st == 4 || st == 5 || st == 6

/-- What keeps a command from going on. -/
inductive Halt where
  | waits
  | status (st : BitVec 32) (line : Nat)
  | replay (page : Nat) (kind : Access)
  | fault (code : BitVec 16) (va : Nat)
  deriving DecidableEq, Repr

/-- The name under which a command owns lines: engine, and context with sequence number. -/
def Task.owner (eng : Nat) (t : Task) : Nat × Nat := (eng, t.ctx * 2 ^ 32 + t.seq.toNat)

/-- Changes a task of a queue. -/
def State.modTask (s : State) (k : Nat) (seq : BitVec 32) (f : Task → Task) : State :=
  s.modEngine k fun q => { q with tasks := q.tasks.map fun t => if t.seq = seq then f t else t }

/-- R330: the physical address behind a global line of a command. -/
def State.taskLine (s : State) (t : Task) (line : Nat) (k : Access) : Except Halt Nat × State :=
  match s.translate t.core t.ctx (line * 128) k with
  | (.ok pa, u) => (.ok (pa / 128), u)
  | (.fault c, u) => (.error (.fault c (line * 128)), u)
  | (.replay, u) => (.error (.replay (line * 128 / 65536) k), u)
  | (.blocked, u) => (.error .waits, u)

/-- R242, R269: one source line of a command. Its own destination lines are read as they stand. -/
def State.taskRead (s : State) (eng : Nat) (t : Task) (fresh : Bool) (own : List Nat) (line : Nat) : Except Halt Line × State :=
  let r : Except Halt EngineRead × State :=
    if scratchBase ≤ line * 128 then
      let k := slotByte t.core (line * 128) / 128
      let l := s.scratchLine k
      (.ok (if own.contains line && l.count != .dropped then .data l.data 0 else s.engineScratch k), s)
    else match s.taskLine t line .read with
    | (.ok pl, u) => let (x, w) := u.engineLine t.ctx t.core pl t.ts fresh (some (t.owner eng)) true; (.ok x, w)
    | (.error h, u) => (.error h, u)
  match r with
  | (.ok (.data d _), u) => (.ok d, u)
  | (.ok .waits, u) => (.error .waits, u)
  | (.ok .bad, u) => (.error (.status Status.dataErr line), u)
  | (.ok .dropped, u) => (.error (.status Status.overRead line), u)
  | (.error h, u) => (.error h, u)

/-- Source lines of a command, each once. -/
def State.taskReads (s : State) (eng : Nat) (t : Task) (fresh : Bool) (own : List Nat) : List Nat → Except Halt (Tab Line) × State
  | [] => (.ok [], s)
  | l :: rest =>
    match s.taskRead eng t fresh own l with
    | (.error h, u) => (.error h, u)
    | (.ok d, u) =>
      match u.taskReads eng t fresh own rest with
      | (.ok m, w) => (.ok (Tab.put m l d), w)
      | (.error h, w) => (.error h, w)

/-- The lines of n bytes from an address. -/
def linesOf (va n : Nat) : List Nat := (List.range ((va + n - 1) / 128 + 1 - va / 128)).map (va / 128 + ·)

/-- n bytes from an address of lines that have been read. -/
def readFrom (m : Tab Line) (va n : Nat) : Nat :=
  littleEndian (fun x => BitVec.ofNat 8 (lineRead (Tab.getD m (x / 128) 0) (x % 128) 1)) va n

/-! ### What a command writes -/

/-- One byte into the lines to be written. -/
def putByte (t : Tab LineWrite) (x : Nat) (b : Byte) : Tab LineWrite :=
  let w := Tab.getD t (x / 128) ⟨x / 128 * 128, 0, 0⟩
  Tab.put t (x / 128) { w with data := mergeLine w.data (lineValue (x % 128) 1 b.toNat) (byteMask (x % 128) 1),
                               mask := w.mask ||| byteMask (x % 128) 1 }

def putBytes (t : Tab LineWrite) (x : Nat) : List Byte → Tab LineWrite
  | [] => t
  | b :: l => putBytes (putByte t x b) (x + 1) l

def putPiece (m : Tab Line) (t : Tab LineWrite) (p : Piece) : Tab LineWrite :=
  putBytes t p.dst (bytesOf (match p.src with | some a => readFrom m a p.n | none => p.pad) p.n)

/-- R273: where two elements of a box reach the same bytes, which one stands is a free choice. -/
def State.anyOrder (s : State) (l : List Piece) : List Piece :=
  Tab.vals ((l.zip (List.range l.length)).foldl (fun t (p, i) => Tab.put t (Config.choices s.turn i * 2 ^ 25 + i) p) [])

/-- R276: an element of a row after some source elements, rounded once. -/
def combineSet (ty op old : Nat) (src : List Nat) : Nat :=
  if ty < 2 then
    if op = 1 then (src.foldl (· + ·) old) % 2 ^ 32
    else src.foldl (fun a b =>
      let less := if ty = 0 then (BitVec.ofNat 32 a).slt (BitVec.ofNat 32 b) else decide (a < b)
      if less == (op == 3) then b else a) old
  else
    let F := if ty = 2 then fp32 else bf16
    if op = 1 then roundTo F .rne false (Real.sum .rne ((old :: src).map F.value)) else src.foldl (fun a b => fSelect F (op == 3) false a b) old

/-- R276: .comb takes the set at once, .ord one position after the other. -/
def combine (ty op : Nat) (ordered : Bool) (old : Nat) (src : List Nat) : Nat :=
  if ordered then src.foldl (fun a b => combineSet ty op a [b]) old else combineSet ty op old src

/-- A word of a row: one element, or two in BF16. -/
def combineWord (ty op : Nat) (ordered : Bool) (old : Nat) (src : List Nat) : Nat :=
  if ty = 6 then
    combine ty op ordered (old % 65536) (src.map (· % 65536)) + 65536 * combine ty op ordered (old / 65536) (src.map (· / 65536))
  else combine ty op ordered old src

/-- R276: the rows that a SCAT with an operation writes, from its source lines and the lines that hold the rows. -/
def State.scatRows (s : State) (blk : Nat) (d : BitVec 512) (idx : List Nat) (m rowLines : Tab Line) : Tab LineWrite :=
  let at_ := s.canon blk
  let rows := distinct (idx.filter fun x => decide (x < gathRows d))
  rows.foldl (fun t x =>
    let p := (List.range (gathN d)).filter fun i => idx.getD i 0 == x
    (List.range (gathRowb d / 4)).foldl (fun t w =>
      let dst := at_ (gathT d + x * gathTstr d + 4 * w)
      let src := p.map fun i => readFrom m (at_ (gathX d + i * gathXstr d + 4 * w)) 4
      putBytes t dst (bytesOf (combineWord (gathType d) (gathOp d) (gathOrdered d) (readFrom rowLines dst 4) src) 4)) t) []

/-- R276, R242: a line of a command as it is written onto what stands there: a SCAT with an operation combines as it writes. -/
def State.finalWrite (s : State) (t : Task) (w : LineWrite) (old : Line) : LineWrite :=
  match t.cmd, t.rows with
  | .scat d, some (idx, m) => Tab.getD (s.scatRows t.block d idx m [(w.va / 128, old)]) (w.va / 128) w
  | _, _ => w

/-- The lines of n bytes at an address, from a number. -/
def spanWrites (va n v : Nat) : Tab LineWrite := putBytes [] va (bytesOf v n)

/-- The writes of a command whose sources have been read; of a collective, its whole receive buffer, to be filled when it has
met its participants. -/
def State.taskWrites (s : State) (t : Task) (idx : List Nat) (m : Tab Line) : List LineWrite :=
  match t.cmd with
  | .prefb base len => (List.range (len / 128)).map fun l => ⟨base.toNat + 128 * l, 0, BitVec.allOnes 128⟩
  | .coll d scope =>
    let n := (s.participantsOf t.ctx scope d).length
    Tab.vals (spanWrites (collRbuf d) (collReceived d n * collChunkBytes d) 0)
  | .scat d =>
    if gathOp d = 0 then Tab.vals ((s.pieces t.block t.cmd idx).foldl (putPiece m) []) else Tab.vals (s.scatRows t.block d idx m [])
  | .cpt .. => Tab.vals ((s.anyOrder (s.pieces t.block t.cmd idx)).foldl (putPiece m) [])
  | c => Tab.vals ((s.pieces t.block c idx).foldl (putPiece m) [])

/-! ### Starting (R242, R267) -/

/-- The array of indices of GATH and SCAT, read as leased loads. -/
def State.taskIndices (s : State) (eng : Nat) (t : Task) : Except Halt (List Nat) × State :=
  let from_ (d : BitVec 512) : Except Halt (List Nat) × State :=
    let base := s.canon t.block (gathI d)
    match s.taskReads eng t false t.cleared (linesOf base (4 * gathN d)) with
    | (.ok m, u) => (.ok ((List.range (gathN d)).map fun i => readFrom m (base + 4 * i) 4), u)
    | (.error h, u) => (.error h, u)
  match t.cmd with
  | .gath d _ | .scat d => from_ d
  | _ => (.ok [], s)

/-- The source lines of a command. -/
def State.taskSources (s : State) (t : Task) (idx : List Nat) : List Nat :=
  match t.cmd with
  | .coll d scope =>
    let n := (s.participantsOf t.ctx scope d).length
    linesOf (collSbuf d) (collSent d n * collChunkBytes d)
  | .prefb .. => []
  | c =>
    let ps := s.pieces t.block c idx
    distinct (ps.flatMap fun p => match p.src with | some a => [a / 128, (a + p.n - 1) / 128] | none => [])

/-- R242: one more command owns a line. -/
def Directory.join (o : Nat × Nat) : Directory → Directory
  | .engine l => .engine (l ++ [o])
  | _ => .engine [o]

/-- R242: a command's ownership of a line ends. -/
def Directory.leave (o : Nat × Nat) : Directory → Directory
  | .engine l => if (l.erase o).isEmpty then .home else .engine (l.erase o)
  | x => x

/-- R242: a destination line is registered at its home, a remote one in this package; a line that is counted or not global is not. -/
def State.ownLine (s : State) (eng : Nat) (t : Task) (line : Nat) : Except Halt Unit × State :=
  if scratchBase ≤ line * 128 then
    let l := s.scratchLine (slotByte t.core (line * 128) / 128)
    (if l.count = .dropped ∧ t.cnt.isNone then .error (.status Status.overRead line) else .ok (), s)
  else match s.taskLine t line .write with
  | (.error h, u) => (.error h, u)
  | (.ok pl, u) =>
    if (Tab.get? u.mem.counted pl).any (fun c => c.count == 0) && t.cnt.isNone then (.error (.status Status.overRead line), u)
    else if !isHost (pl * 128) && !isRemote (pl * 128) && u.keyGone t.ctx then (.error (.status Status.dataErr line), u)
    else if (Tab.get? u.mem.counted pl).isSome || t.cnt.isSome then (.ok (), u)
    else if (u.home pl).dir = .migrating then (.error .waits, u)
    else
      let w := u.recall pl
      (.ok (), w.putHome pl { w.home pl with dir := (w.home pl).dir.join (t.owner eng) })

def State.ownLines (s : State) (eng : Nat) (t : Task) : List Nat → Except Halt Unit × State
  | [] => (.ok (), s)
  | l :: rest => match s.ownLine eng t l with | (.ok (), u) => u.ownLines eng t rest | r => r

/-- R242, R269: the ownership of every line of a command ends, and so does what it has ordered. -/
def State.disown (s : State) (eng : Nat) (t : Task) : State :=
  ({ s with mem := { s.mem with homes := s.mem.homes.map fun (l, h) => (l, { h with dir := h.dir.leave (t.owner eng) }) } } : State).dropKept (t.owner eng)

/-- R353: the first watchpoint that the bytes of a command match, and where. -/
def State.taskHit (s : State) (t : Task) (idx : List Nat) : Option (Nat × BitVec 56) :=
  let spans : List (Nat × Nat × Bool) := match t.cmd with
    | .prefb base len => [(base.toNat, len, true)]
    | .coll d scope =>
      let n := (s.participantsOf t.ctx scope d).length
      [(collSbuf d, collSent d n * collChunkBytes d, true), (collRbuf d, collReceived d n * collChunkBytes d, false)]
    | c =>
      let combines := match c with | .scat d => gathOp d != 0 | _ => false
      let array := match c with | .gath d _ | .scat d => [(s.canon t.block (gathI d), 4 * gathN d, true)] | _ => []
      array ++ (s.pieces t.block c idx).flatMap fun p =>
        (match p.src with | some a => [(a, p.n, true)] | none => []) ++ (if combines then [(p.dst, p.n, true)] else []) ++ [(p.dst, p.n, false)]
  if !t.watched then none
  else (spans.findSome? fun (va, n, reads) => s.watchSpan t.ctx t.block va n reads (!reads)).map fun (x, k) => (k, BitVec.ofNat 56 x)

/-- R341: the payload of TTSTART and TTEND. -/
def Task.payload (t : Task) (eng : Nat) : Nat := t.ctx + place 12 eng + place 20 t.seq.toNat

/-- R341: TTSTART, of a command that has not started. -/
def State.noteStart (s : State) (eng : Nat) (t : Task) : State :=
  if t.started then s else s.record t.core 4 0 t.ctx 0x0D (t.payload eng)

/-- R348: the fault record of a command. -/
def Task.faultRecord (t : Task) (s : State) (eng : Nat) (code : BitVec 16) (va : Nat) : FaultRecord :=
  { code := code, ctx := t.ctx, tenant := ((s.ctx? t.ctx).map (·.tenant)).getD 0, core := t.core, quarter := 0, slot := 0, engine := eng,
    seq := t.seq, lanes := 0, pc := 0, addr := BitVec.ofNat 56 va }

/-- R269, R330, R332, R341: what keeps a command from going on takes its effect. `writes` are the lines it has yet to write. -/
def State.haltTask (s : State) (eng : Nat) (t : Task) (writes : List LineWrite) (h : Halt) : State :=
  let k := queueKey eng t.ctx
  let stop (u : State) (st : BitVec 32) : State :=
    (u.noteStart eng t).modTask k t.seq fun x => { x with started := true, status := st, writes := writes }
  match h with
  | .waits => s
  | .status st line =>
    let u := if st = Status.overRead then
        let region := match s.regionAt t.ctx (positionOf t.core (line * 128)) with | some (r, _) => r | none => 0
        s.recordOver t.core t.ctx none line region 0
      else s
    stop u st
  | .replay page kind =>
    if t.stalled then s
    else (s.joinFault t.ctx page kind (dieOf t.core) 1 eng t.seq).modTask k t.seq fun x => { x with stalled := true }
  | .fault code va => stop (s.fatal (t.faultRecord s eng code va) 0 code (va / 65536)) Status.tfault

/-- R243: the next number of the collective flow to a package. -/
def State.nextColl (s : State) (pkg : Nat) : Nat × State :=
  let n := Tab.getD s.host.collGiven pkg 0
  (n, { s with host := { s.host with collGiven := Tab.put s.host.collGiven pkg (n + 1) } })

/-- R278: what a participant sends. -/
def State.sendChunk (s : State) (t : Task) (d : BitVec 512) (scope : Nat) (m : Tab Line) : State :=
  let ps := s.participantsOf t.ctx scope d
  let own := s.sys.causkid.toNat % 512
  let bytes := collSent d ps.length * collChunkBytes d
  let words := (List.range ((bytes + 3) / 4)).map fun i => BitVec.ofNat 32 (readFrom m (collSbuf d + 4 * i) (min 4 (bytes - 4 * i)))
  let tag := BitVec.ofNat 32 (collTag d)
  let agree := collAgree d t.ctx
  let s1 : State := { s with chunks := s.chunks ++ [⟨t.ctx, scope, tag, own, dieOf t.core, t.inst, words, agree⟩] }
  (distinct ((ps.map (·.1)).filter (· != own))).foldl (fun u p =>
    let (n, v) := u.nextColl p
    v.send p (.collChunk n t.ctx t.inst tag own (dieOf t.core) words agree v.homeClocks)) s1

/-- The indices of a command that has not read them: nothing says what they are. -/
def State.freeIndices (s : State) (t : Task) : List Nat :=
  match t.cmd with
  | .gath d _ | .scat d => (List.range (gathN d)).map fun i => Config.choices s.turn i % 2 ^ 32
  | _ => []

/-- R276: what a SCAT that combines keeps until it writes. -/
def Task.keeps (t : Task) (idx : List Nat) (m : Tab Line) : Option (List Nat × Tab Line) :=
  match t.cmd with
  | .scat d => if gathOp d = 0 then none else some (idx, m)
  | _ => none

/-- R204: the scratchpad lines of a SCAT's table that it does not write are present again, as they were before its issue. -/
def State.giveBackPad (s : State) (t : Task) (writes : List LineWrite) : State :=
  (t.cleared.filter fun l => writes.all fun w => w.va / 128 != l).foldl (fun u l => u.setPresence t.core l true) s

/-- R267, R341: a command starts: it reads its sources and owns its destinations. -/
def State.startTask (s : State) (eng : Nat) (t : Task) : State :=
  let k := queueKey eng t.ctx
  match s.taskIndices eng t with
  | (.error h, u) => u.haltTask eng t (s.taskWrites t (s.freeIndices t) []) h
  | (.ok idx, u) =>
    let own := match t.cmd with | .scat _ => distinct ((s.pieces t.block t.cmd idx).map (·.dst / 128)) | _ => s.destLines t
    match u.taskReads eng t t.fresh own (s.taskSources t idx) with
    | (.error h, u) => u.haltTask eng t (s.taskWrites t idx []) h
    | (.ok m, u) =>
      let writes := s.taskWrites t idx m
      let owned : Except Halt Unit × State := match t.cmd with
        | .prefb .. => (.ok (), u)
        | _ => u.ownLines eng t (writes.map fun w => w.va / 128)
      match owned with
      | (.error h, w) => (w.disown eng t).haltTask eng t writes h
      | (.ok (), w) =>
        let w1 := match t.cmd with
          | .coll d scope => w.sendChunk t d scope m
          | .scat _ => w.giveBackPad t writes
          | _ => w
        let waitsFor := match t.cmd with | .coll .. => true | _ => false
        (w1.noteStart eng t).modTask k t.seq fun x =>
          { x with started := true, writes := if waitsFor then [] else writes, hit := s.taskHit t idx, rows := t.keeps idx m,
                   cleared := [] }

/-- TILE_TASK_START, R266, R267: the next command of a queue that is neither stopped nor stalled (R269). -/
def execTileTaskStart (eng ctx : Nat) (s : State) : Out :=
  let q := s.engineQueue (queueKey eng ctx)
  if q.stopped || s.ctxEnded ctx then .next s
  else match q.tasks.find? fun t => !t.started with
  | none => .next s
  | some t => if q.tasks.any (fun x => x.stalled || (x.started && x.hit.isSome)) then .next s else .next (s.startTask eng t)

/-! ### Writing lines (R212, R242, R268) -/

def maskCount (m : LineMask) : Nat := ((List.range 128).filter fun i => m.getLsbD i).length

/-- R268, R274: bytes of a line are subtracted from the barrier objects that its command names for it. -/
def State.subtract (s : State) (t : Task) (w : LineWrite) (time : LTime) : State :=
  let bars : List (Nat × Nat) := match t.cmd with
    | .cpm _ => t.bars.filter fun b => b.1 == slotByte t.core w.va / 2 ^ 19
    | _ => t.bars
  bars.foldl (fun u b => u.addBytes b.1 b.2 (-(maskCount w.mask : Int)) (some time)) s

/-- The count and the region that a counted fill of a line takes. -/
def State.fillCount (s : State) (t : Task) (n line : Nat) : Nat × Nat :=
  match s.regionAt t.ctx (positionOf t.core (line * 128)) with
  | some (k, r) => (if n = 0 then r.count else n, k)
  | none => (max 1 n, 0)

/-- What the write of a line by a command comes to: its completion time so far, and whether the line has been written, or is posted to a
peer. -/
abbrev Wrote := LTime × Bool

/-- R204, R212: a line of a scratchpad written by a command. -/
def State.writeScratch (s : State) (t : Task) (w : LineWrite) : Except Halt Wrote × State :=
  let k := slotByte t.core w.va / 128
  let l := s.scratchLine k
  let done (u : State) : State := u.putScratch k { u.scratchLine k with present := true, poison := false }
  match t.cnt with
  | some n =>
    let (count, region) := s.fillCount t n (w.va / 128)
    (.ok (t.time, true), done (s.fillCounted t.ctx t.core none ⟨true, k * 128⟩ w.va region count w.data))
  | none =>
    if l.count = .dropped then (.error (.status Status.overRead (w.va / 128)), s)
    else
      let w := s.finalWrite t w l.data
      (.ok (t.time, true), done (s.putScratch k { l with data := mergeLine l.data w.data w.mask }))

/-- R242: a command's ownership of one line ends. -/
def State.leaveLine (s : State) (o : Nat × Nat) (pl : Nat) : State := s.putHome pl { s.home pl with dir := (s.home pl).dir.leave o }

/-- R242, R401: a line of a remote home is posted there. A SCAT that combines reads it first (log entry 119). -/
def State.writeRemote (s : State) (eng : Nat) (t : Task) (w : LineWrite) (pl : Nat) : Except Halt Wrote × State :=
  let o := t.owner eng
  let post (u : State) (w : LineWrite) : Except Halt Wrote × State :=
    (.ok (t.time, u.peerGone (remotePkg pl)),
      (u.postRemote pl none (some (queueKey eng t.ctx, t.seq.toNat)) none ⟨w.data, w.mask, w.mask, t.ts, t.ts, u.now, t.ctx⟩).leaveLine o pl)
  if t.rows.isNone then post s w
  else if s.lineBad pl then (.error (.status Status.dataErr (w.va / 128)), s)
  else match s.engineRemote t.ctx t.core pl t.ts (some o) none with
  | (.data d _, u) => post u (u.finalWrite t w d)
  | (_, u) => (.error .waits, u)

/-- R237, R242, R388: a line written by a command at its home. -/
def State.writeAtHome (s : State) (eng : Nat) (t : Task) (w : LineWrite) (pl : Nat) : Except Halt Wrote × State :=
  let o := t.owner eng
  if t.rows.isSome && s.lineBad pl then (.error (.status Status.dataErr (w.va / 128)), s)
  else match s.openOwned pl t.ctx w.mask t.rows.isSome none true (some o) (engineIndex eng) fun _ => false with
  | (false, u) => (.error .waits, u)
  | (true, u) =>
    let w := u.finalWrite t w (u.homeView pl (u.keyTag t.ctx))
    let (wts, u1) := u.homeStore pl t.ts
    (.ok (maxs t.time wts, true), ((u1.writeHome pl (u1.keyTag t.ctx) t.ctx w.data w.mask).markEngine pl).leaveLine o pl)

/-- R212, R242, R401: a global line written by a command, at its home, at the counted line that stands for it, or at a remote
home. -/
def State.writeGlobal (s : State) (eng : Nat) (t : Task) (w : LineWrite) (pl : Nat) : Except Halt Wrote × State :=
  match t.cnt, Tab.get? s.mem.counted pl with
  | some n, _ =>
    match s.readyFill t.core [] ⟨false, pl * 128⟩ with
    | (none, u) => (.error .waits, u)
    | (some u, _) =>
      let (count, region) := s.fillCount t n (w.va / 128)
      (.ok (t.time, true), u.fillCounted t.ctx t.core none ⟨false, pl * 128⟩ w.va region count w.data)
  | none, some c =>
    if c.count = 0 then (.error (.status Status.overRead (w.va / 128)), s)
    else
      let w := s.finalWrite t w c.data
      (.ok (t.time, true), { s with mem := { s.mem with counted := Tab.put s.mem.counted pl { c with data := mergeLine c.data w.data w.mask } } })
  | none, none =>
    if isRemote (pl * 128) then s.writeRemote eng t w pl else s.writeAtHome eng t w pl

/-- R227: the data of a line of a bulk prefetch that is to be counted, from the memory beneath it. -/
def State.prefetchRead (s : State) (eng : Nat) (t : Task) (pl : Nat) : EngineRead × State :=
  if !isRemote (pl * 128) then s.engineHome t.ctx t.core pl t.ts (some (t.owner eng)) none false
  else if s.lineBad pl then (.bad, s)
  else if (s.host.posted.any fun (_, p) => p.line == pl && !p.lost) = true then (.waits, s)
  else s.engineRemote t.ctx t.core pl t.ts (some (t.owner eng)) none

/-- R227: a line of a bulk prefetch; answers whether it was skipped. A line that is live or dropped already takes what the memory beneath it
holds: R227 does not say whose data it is (DESIGN CHOICE, log entry 120). -/
def State.prefetchLine (s : State) (eng : Nat) (t : Task) (w : LineWrite) : Except Halt Bool × State :=
  match s.translate t.core t.ctx w.va .read with
  | (.fault c, u) => if c = Code.pageFault then (.ok true, u) else (.error (.fault c w.va), u)
  | (.replay, u) => (.ok true, u)
  | (.blocked, u) => (.error .waits, u)
  | (.ok pa, u) =>
    let pl := pa / 128
    match t.cnt with
    | none =>
      match u.engineLine t.ctx t.core pl t.ts true (some (t.owner eng)) false with
      | (.data .., x) => (.ok false, x)
      | (.waits, x) => (.error .waits, x)
      | (.bad, x) => (.error (.status Status.dataErr (w.va / 128)), x)
      | (.dropped, x) => (.error (.status Status.overRead (w.va / 128)), x)
    | some n =>
      match u.readyFill t.core [] ⟨false, pl * 128⟩ with
      | (none, x) => (.error .waits, x)
      | (some x, _) =>
        match x.prefetchRead eng t pl with
        | (.data d _, y) =>
          let (count, region) := y.fillCount t n (w.va / 128)
          (.ok false, y.fillCounted t.ctx t.core none ⟨false, pl * 128⟩ w.va region count d)
        | (.bad, y) => (.error (.status Status.dataErr (w.va / 128)), y)
        | (_, y) => (.error .waits, y)

/-- One line of a command: its completion time so far, whether the line has been written, and the command's status. -/
def State.writeLine (s : State) (eng : Nat) (t : Task) (w : LineWrite) : Except Halt (Wrote × BitVec 32) × State :=
  match t.cmd with
  | .prefb .. =>
    match s.prefetchLine eng t w with
    | (.ok skipped, u) => (.ok ((t.time, true), if skipped then Status.skipped else t.status), u)
    | (.error h, u) => (.error h, u)
  | _ =>
    let r := if scratchBase ≤ w.va then s.writeScratch t w
      else match s.taskLine t (w.va / 128) .write with
      | (.ok pl, u) => u.writeGlobal eng t w pl
      | (.error h, u) => (.error h, u)
    match r with
    | (.ok x, u) => (.ok (x, t.status), u)
    | (.error h, u) => (.error h, u)

/-- A started command that has lines to write, now or once its collective has met. -/
def Task.unwritten (t : Task) : Bool :=
  t.started && !abortStatus t.status && (!t.writes.isEmpty || match t.cmd with | .coll .. => !t.joined | _ => false)

/-- ENGINE_LINE_WRITE, R242, R268: one line, in no stated order, of the earliest command with lines to write. A stalled queue writes none
(R269). -/
def execEngineLineWrite (eng ctx : Nat) (s : State) : Out :=
  let k := queueKey eng ctx
  match (s.engineQueue k).tasks.find? Task.unwritten with
  | none => .next s
  | some t =>
    let i := Config.choice s.turn % t.writes.length
    match t.writes[i]? with
    | none => .next s
    | some w =>
      if (s.engineQueue k).tasks.any (·.stalled) then .next s
      else match s.writeLine eng t w with
      | (.error h, u) => .next (u.haltTask eng t t.writes h)
      | (.ok ((time, done), st), u) =>
        .next ((if done then u.subtract t w time else u).modTask k t.seq fun x => { x with writes := x.writes.eraseIdx i, time := time, status := st })

/-- R268: a line that a command has posted to a peer is written there, at a wts, or is lost. -/
def State.taskWritten (s : State) (p : Posted) (wts : Option LTime) : State :=
  match p.task with
  | none => s
  | some (k, seq) =>
    match (s.engineQueue k).tasks.find? fun t => t.seq.toNat == seq with
    | none => s
    | some t =>
      let time := match wts with | some w => maxs t.time w | none => t.time
      (s.subtract t ⟨0, 0, p.mask⟩ time).modTask k t.seq fun x => { x with time := time }

/-! ### Completion and abort (R268 to R270, R281, R353) -/

/-- R253: the writes of a command that a peer has yet to acknowledge. -/
def State.taskPosted (s : State) (k : Nat) (t : Task) : Bool :=
  s.host.posted.any fun (_, p) => p.task == some (k, t.seq.toNat) && !p.lost

/-- R281: every slot claimed before that of the command has been published. -/
def State.ringTurn (s : State) (t : Task) : Bool :=
  match t.ring with | some (c, off, claim) => (s.ring c off).wp == claim | none => true

/-- R268, R281: the slot of a command is published. -/
def State.publish (s : State) (t : Task) : State :=
  match t.ring with
  | some (c, off, claim) =>
    let r := s.ring c off
    (s.putRing c off { r with wp := r.wp + 1 }).putObjTime c off (16 + claim % r.slots) t.time
  | none => s

/-- R270, R353: the queue of a command that touched a box stops, unless its warp has exited or left its core. -/
def State.stopQueue (s : State) (eng : Nat) (t : Task) (i : Nat) (addr : BitVec 56) : State :=
  let s1 := s.recordWatch t.core t.ctx none i true addr.toNat
  match s1.warp? t.wid with
  | some w =>
    if w.resident && !w.liveLanes.isEmpty then
      let info := BitVec.ofNat 64 (i + place 4 1 + place 8 eng + place 32 t.seq.toNat)
      (s1.modWarp t.wid fun w => { w with engineWatches := w.engineWatches ++ [(eng, t.ctx, info)] }).modEngine (queueKey eng t.ctx)
        fun q => { q with stopped := true }
    else s1
  | none => s1

/-- R278, R341: the peers that a collective has lost. -/
def State.lostOf (s : State) (t : Task) : List Nat :=
  match t.cmd with
  | .coll d scope => distinct (((s.participantsOf t.ctx scope d).map (·.1)).filter s.host.lostPeers.contains)
  | _ => []

/-- R268, R269: status and completion time of a command are kept; of commands more than 65,536 older only the latest time is. -/
def EngineQueue.settle (q : EngineQueue) (seq : BitVec 32) (st : BitVec 32) (time : LTime) : EngineQueue :=
  let (kept, gone) := (Tab.put q.done seq.toNat (st, time)).partition fun (i, _) => decide ((seq - BitVec.ofNat 32 i).toNat ≤ 65536)
  { q with
    done := kept
    expired := gone.foldl (fun e (_, x) => match e with | some u => some (maxs u x.2) | none => some x.2) q.expired }

/-- TILE_TASK_COMPLETE, R268: the command at the head of a queue. -/
def execTileTaskComplete (eng ctx : Nat) (s : State) : Out :=
  let k := queueKey eng ctx
  match (s.engineQueue k).tasks with
  | [] => .next s
  | t :: _ =>
    let met := match t.cmd with | .coll .. => t.joined | _ => true
    if !t.started || !met || !t.writes.isEmpty || s.taskPosted k t || !s.ringTurn t then .next s
    else
      let s1 := ((s.disown eng t).publish t).modEngine k fun q =>
        { q with tasks := q.tasks.drop 1 }.settle t.seq t.status t.time
      let s2 := (t.flags.foldl (fun u (w, f) => u.modWarp w fun x => (x.countDown f).noteFlagTime f t.time) s1).modLaunch t.launch
        fun l => { l with time := maxs l.time t.time }
      let s3 : State := { s2 with host := { s2.host with posted := s2.host.posted.filter fun (_, p) => p.task != some (k, t.seq.toNat) } }
      let s4 := s3.record t.core 4 0 t.ctx 0x0E (t.payload eng + place 52 t.status.toNat)
      let s5 := if t.status = Status.peerLost then
          (s.lostOf t).foldl (fun u p => u.record t.core 4 0 t.ctx 0x12 (p + place 9 ((s.host.posted.filter fun (_, x) => x.peer == p && x.lost).length))) s4
        else s4
      .next (match t.hit with | some (i, a) => s5.stopQueue eng t i a | none => s5)

/-- R204, R269: the lines left unwritten: poisoned in a scratchpad, kept in memory; their bytes leave the barrier objects. -/
def State.abandon (s : State) (eng : Nat) (t : Task) (writes : List LineWrite) : State :=
  (writes.foldl (fun u w =>
    let u1 := if scratchBase ≤ w.va then
        let k := slotByte t.core w.va / 128
        u.putScratch k { u.scratchLine k with present := true, poison := true }
      else u
    u1.subtract t w t.time) s).disown eng t

/-- R332: a command of a context that has ended is to abort. -/
def Task.ended (t : Task) : Bool := !abortStatus t.status

/-- R269: the oldest command of a queue whose status says that it writes nothing further, or whose context has ended, aborts. -/
def State.abortTask (s : State) (eng ctx : Nat) : State :=
  let k := queueKey eng ctx
  let unmet (t : Task) : Bool := match t.cmd with | .coll .. => !t.joined | _ => false
  match (s.engineQueue k).tasks.find? fun t => (s.ctxEnded ctx && t.ended) || (abortStatus t.status && (!t.writes.isEmpty || unmet t)) with
  | none => s
  | some t =>
    let writes := if t.started && !unmet t then t.writes else s.taskWrites t (s.freeIndices t) []
    (((s.noteStart eng t).giveBackPad t []).abandon eng t writes).modTask k t.seq fun x =>
      { x with started := true, joined := true, writes := [], stalled := false, status := if abortStatus x.status then x.status else Status.tfault }

/-- TILE_TASK_ABORT, R269. -/
def execTileTaskAbort (eng ctx : Nat) (s : State) : Out := .next (s.abortTask eng ctx)

/-! ### Collectives (R278) -/

/-- Bytes of chunk j of a participant's words. -/
def chunkOf (words : List Word) (z j : Nat) : Nat := packNat 32 (words.map (·.toNat)) / 256 ^ (j * z) % 256 ^ z

/-- R278: one element folded over the participants, in rank order. -/
def reduceElement (ty red : Nat) (l : List Nat) : Nat :=
  let wide (x : Nat) : Nat := if ty = 6 then x * 65536 else x
  let step (a b : Nat) : Nat :=
    if ty = 0 then combineSet 0 (red + 1) a [b]
    else if red = 0 then fAdd fp32 {} a b else fSelect fp32 (red == 2) false a b
  match l with
  | [] => 0
  | x :: rest =>
    let acc := rest.foldl (fun a b => step a (wide b)) (wide x)
    if ty = 6 then roundTo bf16 .rne false (fp32.value acc) else acc

/-- A reduction of chunks of z bytes. -/
def reduceChunks (d : BitVec 512) (l : List Nat) : Nat :=
  let n := collElement d
  packNat (8 * n) ((List.range (collCount d)).map fun i => reduceElement (collType d) (collRed d) (l.map fun c => c / 256 ^ (i * n) % 256 ^ n))

/-- R278: the receive buffer of participant q. -/
def collResult (d : BitVec 512) (q : Nat) (bufs : List (List Word)) : Nat :=
  let z := collChunkBytes d
  match collKind d with
  | 0 => reduceChunks d (bufs.map fun b => chunkOf b z 0)
  | 1 => reduceChunks d (bufs.map fun b => chunkOf b z q)
  | 2 => packNat (8 * z) (bufs.map fun b => chunkOf b z 0)
  | _ => packNat (8 * z) (bufs.map fun b => chunkOf b z q)

/-- R278: the lines of a receive buffer that do not depend on the lost participants, by rank. -/
def collKept (d : BitVec 512) (lost : List Nat) (w : LineWrite) : Bool :=
  let z := collChunkBytes d
  lost.isEmpty || (decide (2 ≤ collKind d) && lost.all fun j =>
    decide (w.va + 128 ≤ collRbuf d + j * z) || decide (collRbuf d + (j + 1) * z ≤ w.va))

/-- What tells one collective of a context from the others: scope, tag, and how many of these each participant has issued before it. -/
structure CollName where
  ctx : Nat
  scope : Nat
  tag : BitVec 32
  inst : Nat
  deriving DecidableEq, Repr

/-- The chunk of a participant for a collective. A COLL that aborts before it sends its own has none: its number is not used again. -/
def State.chunkFrom (s : State) (x : CollName) (p : Nat × Nat) : Option RemoteChunk :=
  s.chunks.find? fun c => c.ctx == x.ctx && c.scope == x.scope && c.tag == x.tag && c.inst == x.inst && c.pkg == p.1 && c.die == p.2

/-- The started command of a die's collective queue that waits for this collective. -/
def State.collTask (s : State) (die : Nat) (x : CollName) : Option Task :=
  (s.engineQueue (queueKey (die * 64 + 32) x.ctx)).tasks.find? fun t => t.started && !t.joined && !abortStatus t.status && t.inst == x.inst &&
    match t.cmd with | .coll d sc => sc == x.scope && BitVec.ofNat 32 (collTag d) == x.tag | _ => false

/-- R278: a collective meets all its participants; each one on this package takes its result. A package that has become unreachable is
lost, whatever it had sent. -/
def State.meet (s : State) (ctx scope inst : Nat) (d : BitVec 512) : State :=
  let name : CollName := ⟨ctx, scope, BitVec.ofNat 32 (collTag d), inst⟩
  let ps := s.participantsOf ctx scope d
  let own := s.sys.causkid.toNat % 512
  let chunks := ps.map (s.chunkFrom name)
  let found := chunks.filterMap id
  let agree := match found with | c :: rest => rest.all fun x => x.agree == c.agree | [] => true
  let lost := (List.range ps.length).filter fun j => (chunks.getD j none).isNone || s.host.lostPeers.contains (ps.getD j (0, 0)).1
  let bufs := chunks.map fun c => match c with | some x => x.chunk | none => []
  let s1 := ((List.range ps.length).zip ps).foldl (fun u (q, p) =>
    if p.1 ≠ own then u
    else match u.collTask p.2 name with
    | none => u
    | some t =>
      let eng := p.2 * 64 + 32
      let k := queueKey eng ctx
      match t.cmd with
      | .coll d _ =>
        let n := collReceived d ps.length * collChunkBytes d
        let all := Tab.vals (spanWrites (collRbuf d) n (collResult d q bufs))
        if !agree then u.modTask k t.seq fun x => { x with joined := true, status := Status.mismatch, writes := all }
        else
          let dropped := all.filter fun w => !collKept d lost w
          (dropped.foldl (fun v w => v.subtract t w t.time) u).modTask k t.seq fun x =>
            { x with joined := true, status := if lost.isEmpty then x.status else Status.peerLost, writes := all.filter (collKept d lost) }
      | _ => u) s
  { s1 with chunks := found.foldl (fun l c => l.erase c) s1.chunks }

/-- COLL_RENDEZVOUS, R278: a collective of the queue all of whose participants have sent their chunks, or are lost. -/
def execCollRendezvous (eng ctx : Nat) (s : State) : Out :=
  let ready (t : Task) : Bool := t.started && !t.joined && !abortStatus t.status && match t.cmd with
    | .coll d scope => (s.participantsOf ctx scope d).all fun p =>
        (s.chunkFrom ⟨ctx, scope, BitVec.ofNat 32 (collTag d), t.inst⟩ p).isSome || s.host.lostPeers.contains p.1
    | _ => false
  match (s.engineQueue (queueKey eng ctx)).tasks.find? ready with
  | some t => match t.cmd with | .coll d scope => .next (s.meet ctx scope t.inst d) | _ => .next s
  | none => .next s

end Sys2Proof.Machine
end

