-- ==== Sys2Proof/Machine/Placement.lean ====
section
/-! DEFINITION. Launch records (R288, R289), why one is rejected (R297), where a block fits (R134, R135, R203, R299, R300) and how
it is placed (R34, R133, R233). -/

namespace Sys2Proof.Machine

open Sys2Proof

/-! ### Records (R288, R289) -/

def Launch.warps (l : Launch) : Nat := (l.blockThreads + 31) / 32
def Launch.warpRegs (l : Launch) : Nat := 16 * (l.get 419 416 + 1)
def Launch.scratchLines (l : Launch) : Nat := l.get 432 420
def Launch.fuse (l : Launch) : Bool := l.get 433 433 == 1
def Launch.fieldsZero (l : Launch) (ranges : List (Nat × Nat)) : Bool := ranges.all fun (hi, lo) => l.get hi lo == 0

/-- R289: a scope code that includes a domain. -/
def scopeIncludes (dom scope : Nat) : Bool :=
  let least := match dom with | 0 | 1 => 0 | 2 => 1 | 3 | 4 => 2 | 5 | 6 => 3 | _ => 4
  (decide (least ≤ scope) && decide (scope ≤ 4)) || (decide (2 ≤ dom) && decide (32 ≤ scope))

/-- R289: the levels of a record. -/
def Launch.levelsOk (l : Launch) : Bool :=
  let is := List.range l.levels
  let below := is.filter fun i => decide (l.domain i < 2)
  let product := below.foldl (fun n i => n * l.extent i) 1
  is.all (fun i => l.get (1024 + 64 * i + 63) (1024 + 64 * i + 41) == 0 &&
    scopeIncludes (l.domain i) (l.get (1024 + 64 * i + 40) (1024 + 64 * i + 35)) && (i == 0 || decide (l.domain (i - 1) ≤ l.domain i))) &&
  (is.filter fun i => l.domain i == 2).length == 1 &&
  (is.all fun i => l.domain i != 0 || [2, 4, 8, 16].contains (l.extent i)) &&
  (is.all (fun i => l.domain i != 1) || (product != 0 && 32 % product == 0)) &&
  decide (1 ≤ l.blockThreads) && decide (l.blockThreads ≤ 1024) &&
  (is.all fun i => l.domain i != 3 || (decide (1 ≤ l.span (l.blockLevel + 1) (i + 1)) && decide (l.span (l.blockLevel + 1) (i + 1) ≤ 16))) &&
  (is.all fun i => l.domain i != 7 || (i + 1 == l.levels && decide (1 ≤ l.extent i) && decide (l.extent i ≤ 512)))

/-- R288, R289: every rule on a record's fields. -/
def Launch.recordOk (l : Launch) : Bool :=
  let nlev := l.levels
  let ndep := l.get 491 488
  l.fieldsZero [(2047, 1536), (511, 509), (495, 492), (415, 401), (383, 376), (319, 312), (255, 248), (191, 184), (127, 120), (63, 56)] &&
  decide (1 ≤ nlev) && decide (nlev ≤ 8) && decide (ndep ≤ 8) &&
  (nlev == 8 || l.get 1535 (1024 + 64 * nlev) == 0) && (ndep == 8 || l.get 1023 (512 + 64 * ndep) == 0) &&
  (List.range ndep).all (fun i => l.get (512 + 64 * i + 31) (512 + 64 * i + 12) == 0) &&
  (l.get 508 508 == 1 || l.get 507 496 == 0) && decide (l.scratchLines ≤ 4096) && decide (l.get 400 384 ≤ 65536) &&
  l.get 247 192 % 2048 == 0 && l.get 183 128 % 16 == 0 && l.get 0 0 == 0 && l.levelsOk

/-! ### What a quarter and a core can hold (R134, R135) -/

/-- The warps that hold a place in a quarter: slot, register base and registers. -/
abbrev Held := List (Nat × Nat × Nat)

def alignOf (n : Nat) : Nat := 2 ^ Nat.log2 (2 * n - 1)

def Held.slot? (h : Held) : Option Nat := (List.range 16).find? fun i => List.all h fun x => x.1 != i

/-- R135: the lowest aligned free range. -/
def Held.base? (h : Held) (n : Nat) : Option Nat :=
  ((List.range (512 / alignOf n)).map (· * alignOf n)).find? fun b =>
    decide (b + n ≤ 512) && List.all h fun (_, x, k) => decide (b + n ≤ x) || decide (x + k ≤ b)

def Held.total (h : Held) : Nat := List.foldl (fun n (x : Nat × Nat × Nat) => n + x.2.2) 0 h

/-- The warps of a quarter that hold a place there. -/
def State.heldIn (s : State) (core q : Nat) : Held :=
  s.warps.filterMap fun (_, w) => match w.place? with
    | some (c, p, slot, base) => if c = core ∧ p = q then some (slot, base, w.alloc) else none
    | none => none

def State.heldOf (s : State) (core : Nat) : Tab Held := (List.range 4).map fun q => (q, s.heldIn core q)

/-- R133, R135: places for warps of n registers in quarters from q on; `ranges` says that each must find its aligned range. -/
def fitWarps (n : Nat) (ranges : Bool) : Nat → Nat → Tab Held → Option (List (Nat × Nat × Nat))
  | 0, _, _ => some []
  | k + 1, q, t =>
    let h := Tab.getD t (q % 4) []
    let base := if ranges then Held.base? h n else if Held.total h + n ≤ 512 then some 512 else none
    match Held.slot? h, base with
    | some i, some b => (fitWarps n ranges k (q + 1) (Tab.put t (q % 4) ((i, b, n) :: h))).map fun l => (q % 4, i, b) :: l
    | _, _ => none

/-- The lowest q0 for which every warp fits. -/
def fitBlock (n count : Nat) (ranges : Bool) (t : Tab Held) : Option (Nat × List (Nat × Nat × Nat)) :=
  (List.range 4).findSome? fun q => (fitWarps n ranges count q t).map fun l => (q, l)

/-- R203: first line of a free run of scratchpad lines of a core, the lowest. -/
def State.freeLines (s : State) (core n : Nat) : Option Nat :=
  let taken := (s.blocks.filter fun (_, b) => b.core == core && !b.departed && !b.saved && b.lines != 0).map fun (_, b) => (b.firstLine, b.lines)
  (sortNat (0 :: taken.map fun (f, k) => f + k)).find? fun x =>
    decide (x + n ≤ 4096) && taken.all fun (f, k) => decide (x + n ≤ f) || decide (f + k ≤ x)

/-- Blocks of a launch that a core with these warps and so many free lines takes, at most k; `ranges` as in `fitWarps`. -/
def Launch.blocksFitting (l : Launch) (ranges : Bool) : Nat → Tab Held → Nat → Nat
  | 0, _, _ => 0
  | k + 1, t, lines =>
    match fitBlock l.warpRegs l.warps ranges t with
    | some (_, ps) =>
      if lines < l.scratchLines then 0
      else 1 + l.blocksFitting ranges k (ps.foldl (fun t (q, i, b) => Tab.put t q ((i, b, l.warpRegs) :: Tab.getD t q [])) t) (lines - l.scratchLines)
    | none => 0

/-- Blocks of a launch that an empty core holds at once. -/
def Launch.perCore (l : Launch) : Nat := l.blocksFitting true 64 [] 4096

/-- R290: the package's rank in its domain. -/
def State.packageRank (s : State) : Nat := ((List.range (s.sys.causkid.toNat % 512)).filter Config.domainPackage).length

/-- R290: the blocks of a launch that run on this package: the first, and the one after the last. -/
def State.ownBlocks (s : State) (l : Launch) : Nat × Nat :=
  match l.levelOf 7 with
  | some i =>
    let n := l.span (l.blockLevel + 1) i
    if s.packageRank < l.extent i then (s.packageRank * n, (s.packageRank + 1) * n) else (0, 0)
  | none => (0, l.blockCount)

/-! ### Rejection (R297) -/

def State.coreEnabled (s : State) (core : Nat) : Bool := s.part.cores.getLsbD core

/-- Cores of a cluster that the part has. -/
def State.clusterCores (s : State) (cl : Nat) : List Nat := ((List.range 96).map (cl * 96 + ·)).filter s.coreEnabled

/-- The first cores of a cluster from which so many consecutive ones are enabled. -/
def State.teamStarts (s : State) (cl n : Nat) : List Nat :=
  (List.range 96).filterMap fun c =>
    if c + n ≤ 96 ∧ (List.range n).all (fun i => s.coreEnabled (cl * 96 + c + i)) then some (cl * 96 + c) else none

/-- R297: the cores that an instance of so many blocks needs: its teams stand side by side, and each core takes as many blocks
as an empty one admits. -/
def Launch.coresNeeded (l : Launch) (blocks : Nat) : Nat :=
  let per := max 1 l.perCore
  match l.levelOf 3 with
  | some i => let t := l.instanceBlocks i; ((blocks + t - 1) / t + per - 1) / per * t
  | none => (blocks + per - 1) / per

/-- R297: some enabled unit of a level's domain holds an instance of it. -/
def State.unitHolds (s : State) (l : Launch) (i : Nat) : Bool :=
  let n := l.instanceBlocks i
  match l.domain i with
  | 3 => (List.range 16).any fun cl => !(s.teamStarts cl n).isEmpty
  | 4 => (List.range 16).any fun cl => decide (l.coresNeeded n ≤ (s.clusterCores cl).length)
  | 5 => (List.range 4).any fun d => decide (l.coresNeeded n ≤ ((List.range 4).map fun c => (s.clusterCores (d * 4 + c)).length).foldl (· + ·) 0)
  | 6 => decide (l.coresNeeded n ≤ ((List.range 16).map fun c => (s.clusterCores c).length).foldl (· + ·) 0)
  | _ => true

/-- R297: the reason for which a record is rejected; `priv` says that R298 accepts a privileged one. -/
def State.rejection (s : State) (l : Launch) (priv : Bool) : Option (BitVec 16) :=
  if !l.recordOk then some 1
  else if l.perCore = 0 then some 3
  else if !((List.range l.levels).all (s.unitHolds l)) then some 4
  else if l.get 487 487 = 1 ∧ !priv then some 5
  else none

/-! ### Where a block may go (R299) -/

/-- Blocks of a launch that stand in the package. -/
def State.blocksOf (s : State) (launch : Nat) : List (Nat × Block) := s.blocks.filter fun (_, b) => b.launch == launch

/-- R299: the unit of a domain that a core lies in. -/
def unitOf (dom core : Nat) : Nat := match dom with | 4 => clusterOf core | 5 => dieOf core | _ => 0

/-- Blocks of a launch that a core takes as it stands. -/
def State.blocksNow (s : State) (l : Launch) (ranges : Bool) (core : Nat) : Nat :=
  let used := (s.blocks.filter fun (_, b) => b.core == core && !b.departed && !b.saved).foldl (fun n (_, b) => n + b.lines) 0
  if s.coreEnabled core then l.blocksFitting ranges 64 (s.heldOf core) (4096 - used) else 0

/-- R299: a cluster runs launches of one fusion mode at a time. -/
def State.modeAllows (s : State) (l : Launch) (cluster : Nat) : Bool :=
  s.blocks.all fun (_, b) => clusterOf b.core != cluster || b.departed || b.saved ||
    (s.launch? b.launch).all fun x => x.fuse == l.fuse

/-- Blocks of a launch that a cluster takes as it stands. -/
def State.clusterNow (s : State) (l : Launch) (ranges : Bool) (cl : Nat) : Nat :=
  if s.modeAllows l cl then ((List.range 96).map fun c => s.blocksNow l ranges (cl * 96 + c)).foldl (· + ·) 0 else 0

/-- R299: an instance of a level fits a core's unit: it lies in one unit and shares it with no other instance, and a new one
starts only where it fits whole. Blocks that are saved stand nowhere. `ranges` as in `fitWarps`. -/
def State.levelAllows (s : State) (launch : Nat) (l : Launch) (ranges : Bool) (linear core i : Nat) : Bool :=
  let dom := l.domain i
  if dom < 4 ∨ 6 < dom then true
  else
    let n := l.instanceBlocks i
    let here (b : Block) : Bool := unitOf dom b.core == unitOf dom core
    (s.blocksOf launch).all (fun (_, b) => b.saved || (if b.linear / n = linear / n then here b else b.departed || !here b)) &&
    ((s.blocksOf launch).any (fun (_, b) => !b.saved && b.linear / n == linear / n) ||
      match dom with
      | 4 => decide (n ≤ s.clusterNow l ranges (clusterOf core))
      | 5 => decide (n ≤ ((List.range 4).map fun c => s.clusterNow l ranges (dieOf core * 4 + c)).foldl (· + ·) 0)
      | _ => true)

/-- R299: block t of a team instance goes to core s + t. -/
def State.teamAllows (s : State) (launch : Nat) (l : Launch) (ranges : Bool) (linear core : Nat) : Bool :=
  match l.levelOf 3 with
  | none => true
  | some i =>
    let n := l.instanceBlocks i
    match (s.blocksOf launch).find? fun (_, b) => !b.saved && b.linear / n == linear / n with
    | some (_, b) => core + b.linear % n == b.core + linear % n
    | none =>
      let first := core - linear % n
      decide (linear % n ≤ core) && (s.teamStarts (clusterOf core) n).contains first &&
      (List.range n).all fun j =>
        (s.freeLines (first + j) l.scratchLines).isSome && (fitBlock l.warpRegs l.warps ranges (s.heldOf (first + j))).isSome

/-- R300: the core is reserved for another launch's block, which still waits. -/
def State.reservedFor (s : State) (launch core : Nat) : Bool :=
  s.launches.any fun (i, x) => i != launch && decide (x.status = .eligible ∨ x.status = .running) && match x.waiter with | some (_, c, r) => r && c == core | none => false

/-- R299, R300: a core admits a block: first line, q0 and the warps' places. `ranges` false leaves aside register ranges. -/
def State.admits (s : State) (launch : Nat) (l : Launch) (linear core : Nat) (ranges : Bool) :
    Option (Nat × Nat × List (Nat × Nat × Nat)) :=
  if s.coreEnabled core && s.modeAllows l (clusterOf core) && !s.reservedFor launch core && s.teamAllows launch l ranges linear core &&
      (List.range l.levels).all (s.levelAllows launch l ranges linear core) then
    match s.freeLines core l.scratchLines, fitBlock l.warpRegs l.warps ranges (s.heldOf core) with
    | some x, some (q, ps) => some (x, q, ps)
    | _, _ => none
  else none

/-- R318: the lowest free save slots of a queue: one for each warp, and one for the block. -/
def Queue.freeSlots (q : Queue) (warps : Nat) : Option (List Nat × Nat) :=
  let free := (List.range (min q.slots.toNat (q.warpSlots.length + warps))).filter fun i => !q.warpSlots.contains i
  if warps ≤ free.length then
    some (free.take warps, ((List.range (q.blockSlots.length + 1)).find? fun i => !q.blockSlots.contains i).getD 0)
  else none

/-- A queue before anything of it is written. -/
def Queue.unbound : Queue where
  bind := 0
  ring := 0
  cpl := 0
  save := 0
  slots := 0
  producer := 0
  consumer := 0
  nextSub := 0
  pending := []
  completions := []
  cplNext := 0
  cplCons := 0
  warpSlots := []
  blockSlots := []

/-! ### Placing a block (R34, R133, R203, R233) -/

def Thread.start (entry : VAddr) (regs : Tab Word) (now : Nat) : Thread where
  pc := entry
  pos := 0
  acked := false
  rhdr := 0
  runAt := 0
  fell := false
  regs := regs
  preds := 0
  lcs := []
  loops := []
  hidden := []
  spill := 0
  status := .running
  readySince := now + 1
  readyAt := none
  notBefore := now + 1
  yielded := false
  wmask := 0
  causes := []
  pdaddr := 0
  owed := none

/-- R34: V0 to V3 of a thread. -/
def Launch.startRegs (l : Launch) (index : Nat) : Tab Word :=
  let size := l.get 400 384 * 16
  let stack := l.get 183 128 + (index + 1) * size
  let words := [l.get 95 64, l.get 127 96, stack % 2 ^ 32, stack / 2 ^ 32]
  ((List.range 4).zip words).foldl (fun t (r, v) => Tab.set 0 t r (BitVec.ofNat 32 v)) []

def Warp.formed (block index alloc : Nat) (place : Residence) (threads : Tab Thread) (pts : LTime) (crept saveSlot : Nat) : Warp where
  block := block
  index := index
  alloc := alloc
  residence := place
  threads := threads
  flags := []
  flagTimes := []
  pts := pts
  ots := pts
  crept := crept
  part := 32
  mmode := false
  records := []
  level := 0
  trap := none
  preempt := false
  graceOver := false
  frameKind := 0
  held := []
  suspended := []
  deferred := []
  noWatch := none
  watchQueue := none
  engineWatches := []
  saveSlot := saveSlot
  stoppedOn := none

/-- The points of the fusion mode that a cluster leaves, which hold lines. -/
def State.staleCopies (s : State) (cluster : Nat) (fuse : Bool) : List (Nat × Nat) :=
  s.mem.copies.filterMap fun (k, _) =>
    let p := k / 2 ^ 49
    if (if fuse then decide (cluster * 96 ≤ p) && decide (p < cluster * 96 + 96) else p == fusedPoint cluster) then some (p, k % 2 ^ 49) else none

/-- R206: every dirty byte in the L1s of the mode left is written back, and every copy discarded. None while a home is not
ready. -/
def State.changeMode (s : State) (cluster : Nat) (fuse : Bool) : Option State × State :=
  readyAll (fun (t : State) (x : Nat × Nat) =>
    match t.writeBack x.1 x.2 none true with
    | (some u, _) => let v := u.dropCopy x.1 x.2; (some v, v)
    | (none, u) => (none, u)) s (s.staleCopies cluster fuse)

/-- R203: the lines of a new allocation. -/
def State.freshLines (s : State) (core first n : Nat) : State :=
  { s with mem := { s.mem with scratch := s.mem.scratch.filter fun (l, _) => !(decide (core * 4096 + first ≤ l) && decide (l < core * 4096 + first + n)) } }

/-- R299: the block is placed. -/
def State.placeBlock (s : State) (launch : Nat) (l : Launch) (core first q0 : Nat) (places : List (Nat × Nat × Nat)) (slots : List Nat) (bslot : Nat) : State :=
  let linear := l.nextBlock
  let b := s.fresh
  let threads := l.blockThreads
  let wids := (List.range places.length).map (b + 1 + ·)
  let pts := match l.floor with | some t => maxs s.homeClocks t | none => s.homeClocks
  let entry := BitVec.ofNat 56 (l.get 55 0)
  let block : Block :=
    { launch := launch, linear := linear, core := core, q0 := q0, firstLine := first, lines := l.scratchLines, warps := wids, epoch := 0,
      shadow := [], saveSlot := bslot, saved := false, departed := false }
  let warps := ((List.range places.length).zip (places.zip slots)).foldl (fun t (i, (q, slot, base), save) =>
    let ts := ((List.range 32).filter fun k => decide (i * 32 + k < threads)).map fun k =>
      (k, Thread.start entry (l.startRegs (i * 32 + k + threads * linear)) s.now)
    Tab.put t (b + 1 + i) (Warp.formed b i l.warpRegs (.resident core q slot base) ts pts s.periods save)) s.warps
  let s1 := ({ s with warps := warps, blocks := Tab.put s.blocks b block, fresh := b + 1 + places.length, lastQueue := l.queue } : State).freshLines core first l.scratchLines
  let s2 := s1.modLaunch launch fun x => { x with
    nextBlock := x.nextBlock + 1, status := .running, waiter := none, time := if x.status = .running then x.time else pts }
  let s3 := s2.modQueue l.queue fun q => { q with
    warpSlots := q.warpSlots ++ slots, blockSlots := q.blockSlots ++ [bslot],
    pending := if linear + 1 < (s.ownBlocks l).2 then q.pending else q.pending.filter (· != launch) }
  let handle := l.queue * 2 ^ 24 + l.sub
  s3.record core 4 0 l.ctx 0x0B (linear + place 32 handle)

end Sys2Proof.Machine
end

