-- ==== Sys2Proof/Machine/LaunchOps.lean ====
section
/-! DEFINITION. LAUNCH, JOIN, EVSIG, EVWAIT, SGSET and PRIO (R302 to R307), and the handles and events they act on (R295, R301). -/

namespace Sys2Proof.Machine

open Sys2Proof

/-! ### Queues -/

/-- R293: the fields of QBIND. -/
def Queue.enabled (q : Queue) : Bool := q.bind.getLsbD 12
def Queue.ctx (q : Queue) : Nat := q.bind.toNat % 4096
def Queue.capacity (q : Queue) : Nat := 2 ^ (field q.bind.toNat 17 14 + 4)
def Queue.privileged (q : Queue) : Bool := q.bind.getLsbD 13

/-- The queue, when it is bound to a context. -/
def State.boundQueue (s : State) (q ctx : Nat) : Option Queue := (Tab.get? s.queues q).filter fun x => x.enabled && x.ctx == ctx

/-- A launch as its record submits it. -/
def Launch.submitted (ctx q sub : Nat) (record : BitVec 2048) (floor : Option LTime) (ridx : BitVec 24) : Launch where
  ctx := ctx
  queue := q
  sub := sub
  record := record
  status := .queued
  nextBlock := 0
  exitedBlocks := 0
  prio := field record.toNat 435 434
  promoted := 0
  eligibleSince := 0
  waiter := none
  floor := floor
  time := 0
  preempted := none
  code := 0
  ridx := ridx
  pages := []

/-- R301: a queue gives a submission number anew: a launch of long ago that had it is no longer held. -/
def State.forgetLaunch (s : State) (q sub : Nat) : State :=
  { s with launches := s.launches.filter fun (_, l) => !(l.queue == q && l.sub == sub && decide (l.status = .complete ∨ l.status = .fatal)) }

/-- R293: a record joins its queue; answers its handle. -/
def State.appendLaunch (s : State) (ctx q : Nat) (record : BitVec 2048) (floor : Option LTime) (ridx : BitVec 24) : Nat × State :=
  let sub := match Tab.get? s.queues q with | some x => x.nextSub.toNat | none => 0
  let l := Launch.submitted ctx q sub record floor ridx
  let id := s.fresh
  let s1 : State := { s with launches := Tab.put (s.forgetLaunch q sub).launches id { l with nextBlock := (s.ownBlocks l).1 }, fresh := id + 1 }
  (q * 2 ^ 24 + sub, s1.modQueue q fun x => { x with nextSub := x.nextSub + 1, pending := x.pending ++ [id] })

/-! ### Waits that make accesses -/

/-- R330: a group in a wait meets stops: it faults, waits for a page, or goes on waiting; none when there is none. -/
def State.waitSettle (s t : State) (id : Nat) (x : Wait) (l : List (Member × Stop)) : Option State :=
  match settle s t l with
  | none => none
  | some (.fault causes info) => some (s.faultWait id x causes info)
  | some (.pageWait l _) =>
    some (l.foldl (fun u (y, n) => match y with
      | .replay ctx page k die =>
        if s.host.faults.any fun f => f.ctx == ctx && f.page == page && f.kind == k && f.die == die then u
        else u.joinFault ctx page k die n 0 0
      | _ => u) s)
  | some (.hold u) => some u
  | some _ => some s

/-- n × 64 bytes at a 64-byte-aligned address, as plain loads of a thread. -/
def State.readObjects (s : State) (m : Member) (va : Nat) : Nat → Except Stop Nat × State
  | 0 => (.ok 0, s)
  | n + 1 =>
    match s.readObject m va 64 64 with
    | (.error x, t) => (.error x, t)
    | (.ok v, t) =>
      match t.readObjects m (va + 64) n with
      | (.ok r, u) => (.ok (v + 2 ^ 512 * r), u)
      | (.error x, u) => (.error x, u)

/-! ### LAUNCH (R303) -/

/-- The record of a thread and its queue, or why it has none. -/
def State.launchRecord (s : State) (f : XE) (m : Member) : Except Stop (BitVec 2048 × Nat) × State :=
  match s.readObjects m (s.pair m f.a.toNat).toNat 4 with
  | (.error x, t) => (.error x, t)
  | (.ok v, t) =>
    let q := field v 443 436
    if (t.boundQueue q (s.ctxOf m.wid)).isSome then (.ok (BitVec.ofNat 2048 v, q), t) else (.error (.fault Code.lnchState 0), t)

/-- R303: the records of a group are checked before any is submitted. -/
def State.launchChecks (s : State) (f : XE) (exec : List Member) : List (Member × Stop) × State :=
  exec.foldl (fun (l, t) m => match t.launchRecord f m with | (.ok _, u) => (l, u) | (.error x, u) => (l ++ [(m, x)], u)) ([], s)

/-- R303: the records are submitted in order, until one must wait: how many were, whether all, and the queue without room. -/
def State.launchAll (s : State) (f : XE) (n : Nat) : List Member → Nat × Bool × Option Nat × State
  | [] => (n, true, none, s)
  | m :: rest =>
    match s.launchRecord f m with
    | (.error _, t) => (n, false, none, t)
    | (.ok (rec, q), t) =>
      let ctx := s.ctxOf m.wid
      let d := f.d.toNat
      let full := match Tab.get? t.queues q with | some x => decide (x.capacity ≤ x.pending.length) | none => true
      if (t.rejection (Launch.submitted ctx q 0 rec none 0) (t.privileged m.wid)).isSome then (t.setPair m d 2).launchAll f (n + 1) rest
      else if full then
        if f.var8.getLsbD 0 then (n, false, some q, t) else (t.setPair m d 1).launchAll f (n + 1) rest
      else
        let (h, u) := t.appendLaunch ctx q rec (some (t.pts m.wid)) 0xFFFFFF
        (u.setPair m d (BitVec.ofNat 64 (h * 2 ^ 32))).launchAll f (n + 1) rest

def opLaunch (f : XE) (s : State) : State :=
  s.issue { shapeXE f [r2 f.d, r2 f.a] with place := .ending } fun _ s => .wait (.launch f 0 none) false s

/-- LAUNCH: one attempt: the release, once, then the records. -/
def State.tryLaunch (s : State) (id : Nat) (x : Wait) (f : XE) (done : Nat) : State :=
  let exec := s.waitExec x f.guard f.sense
  if exec.isEmpty then s.endWait id
  else
    let released := if done = 0 then s.releaseAll 3 (warpsOf exec) else (some s, s)
    match released with
    | (none, t) => t
    | (some t, _) =>
      let (stops, u) := if done = 0 then t.launchChecks f exec else ([], t)
      match t.waitSettle u id x stops with
      | some v => v
      | none =>
        let (n, all, q, v) := u.launchAll f done (exec.drop done)
        if all then v.endWait id
        else { v with waits := Tab.modify v.waits id fun w => { w with kind := .launch f n q, parks := f.var8.getLsbD 0 } }

/-! ### JOIN (R301, R304) -/

/-- R301, R304: a handle names no launch of the context. -/
def State.handleBad (s : State) (ctx h : Nat) : Bool :=
  match s.boundQueue (h / 2 ^ 24) ctx with
  | none => true
  | some q => serialAfter 24 (h % 2 ^ 24) ((q.nextSub.toNat + 2 ^ 24 - 1) % 2 ^ 24)

/-- R301, R304: a launch has completed: the time its completion carries; none while it has not. -/
def State.launchDone (s : State) (h : Nat) : Option (Option LTime) :=
  let q := h / 2 ^ 24
  let next := match Tab.get? s.queues q with | some x => x.nextSub.toNat | none => 0
  if 65536 ≤ (next + 2 ^ 25 - 1 - h % 2 ^ 24) % 2 ^ 24 then some none
  else match (s.launches.filter fun (_, l) => l.queue == q && l.sub == h % 2 ^ 24).getLast? with
  | some (_, l) => if l.status = .complete ∨ l.status = .fatal then some (some l.time) else none
  | none => some none

/-- R304: the warps of a list observe a launch's completion. -/
def State.joined (s : State) (wids : List Nat) (t : Option LTime) : State :=
  wids.foldl (fun u w => match t with | some x => u.acquireAt w x | none => u.acquire w) s

def opJoin (f : XE) (s : State) : State :=
  s.issue { shapeXE f [r1 f.b] with place := .ending } fun e s =>
    let h := (s.reg e.first f.b.toNat).toNat
    if s.handleBad (s.ctxOfGroup e.group) h then e.stop Code.lnchState 0
    else match s.launchDone h with
    | some t => .done (s.joined (warpsOf e.exec) t)
    | none => .wait (.join f) true s

def State.tryJoin (s : State) (id : Nat) (x : Wait) (f : XE) : State :=
  match s.waitExec x f.guard f.sense with
  | [] => s.endWait id
  | m :: rest =>
    match s.launchDone (s.reg m f.b.toNat).toNat with
    | some t => (s.joined (warpsOf (m :: rest)) t).endWait id
    | none => s

/-! ### Events (R295, R305) -/

def State.eventValue (s : State) (ctx i : Nat) : Word := match s.ctx? ctx with | some c => Tab.getD c.events i 0 | none => 0

/-- R305: an event rises, carrying a time. -/
def State.raiseEvent (s : State) (ctx i : Nat) (n : Word) (t : LTime) : State :=
  s.modCtx ctx fun c => { c with
    events := Tab.set 0 c.events i (Tab.getD c.events i 0 + n)
    eventTimes := Tab.put c.eventTimes i (match Tab.get? c.eventTimes i with | some u => maxs u t | none => t) }

def opEvsig (f : XE) (s : State) : State :=
  s.issue (shapeXE f [r1 f.b, r1 f.c]) fun e s =>
    if 4095 < (s.reg e.first f.b.toNat).toNat then e.stop Code.lnchState 0 else .wait (.evsig f) false s

def State.tryEvsig (s : State) (id : Nat) (x : Wait) (f : XE) : State :=
  match s.waitExec x f.guard f.sense with
  | [] => s.endWait id
  | m :: rest =>
    let wids := warpsOf (m :: rest)
    match s.releaseAll f.scope.toNat wids with
    | (none, t) => t
    | (some t, _) =>
      let time := wids.foldl (fun u w => maxs u (t.pts w)) (t.pts m.wid)
      (t.raiseEvent (t.ctxOf m.wid) (t.reg m f.b.toNat).toNat (t.reg m f.c.toNat) time).endWait id

def opEvwait (f : XE) (s : State) : State :=
  s.issue { shapeXE f [r1 f.b, r1 f.c] with place := .ending } fun e s =>
    if 4095 < (s.reg e.first f.b.toNat).toNat then e.stop Code.lnchState 0 else .wait (.evwait f) false s

/-- R305: the event has reached the target. -/
def State.eventReached (s : State) (f : XE) (m : Member) : Bool :=
  reached (s.eventValue (s.ctxOf m.wid) (s.reg m f.b.toNat).toNat) (s.reg m f.c.toNat)

def State.tryEvwait (s : State) (id : Nat) (x : Wait) (f : XE) : State :=
  match s.waitExec x f.guard f.sense with
  | [] => s.endWait id
  | m :: rest =>
    if s.eventReached f m then
      let t := match s.ctx? (s.ctxOf m.wid) with | some c => Tab.get? c.eventTimes (s.reg m f.b.toNat).toNat | none => none
      (s.joined (warpsOf (m :: rest)) t).endWait id
    else s

/-! ### SGSET and PRIO (R306, R307) -/

/-- R306: the mask of an operand. -/
def State.groupMask (s : State) (f : XS) (m : Member) : Except Stop (BitVec 1536) × State :=
  match s.readObjects m (s.pair m f.a.toNat).toNat 3 with
  | (.error x, t) => (.error x, t)
  | (.ok v, t) =>
    let mask := BitVec.ofNat 1536 v
    if mask &&& ~~~t.part.cores = 0 then (.ok mask, t) else (.error (.fault Code.lnchState 0), t)

def opSgset (f : XS) (s : State) : State :=
  s.issue (shapeXS 8 f [r2 f.a]) fun e s =>
    if !s.privileged e.first.wid then e.stop Code.privilege 0
    else match s.groupMask f e.first with
    | (.error x, t) => e.stopAll s t x
    | (.ok _, t) => .wait (.sgset f) false t

/-- R306: a fence of the context at a scope group, or an atomic of it, is outstanding (log entry 22). -/
def State.groupBusy (s : State) (ctx scope : Nat) : Bool :=
  s.waits.any (fun (_, x) => match x.kind, x.members with
    | .fence f _, m :: _ => f.scope.toNat == scope && s.ctxOf m.wid == ctx
    | _, _ => false) ||
  s.mem.homeReqs.any fun (_, h) => h.ctx == ctx && h.scope == scope

def State.trySgset (s : State) (id : Nat) (x : Wait) (f : XS) : State :=
  match s.waitExec x f.guard f.sense with
  | [] => s.endWait id
  | m :: rest =>
    let k := f.simm.toNat % 32
    let ctx := s.ctxOf m.wid
    if s.groupBusy ctx (32 + k) then s
    else match s.groupMask f m with
    | (.error stop, t) => (s.waitSettle t id x ((m :: rest).map fun n => (n, stop))).getD t
    | (.ok mask, t) => (t.modCtx ctx fun c => { c with groups := Tab.set 0 c.groups k mask }).endWait id

def opPrio (f : XS) (s : State) : State :=
  s.issue (shapeXS 8 f []) fun e s =>
    let n := f.simm.toNat % 4
    let m := e.first
    if s.recField m.wid 435 434 < n ∧ !s.privileged m.wid then e.stop Code.privilege 0
    else match s.block? (s.blockOf m.wid) with
    | some b => .done (s.modLaunch b.launch fun l => { l with prio := n, promoted := 0, eligibleSince := s.elapsed })
    | none => .done s

/-! ### Meanings -/

/-- LAUNCH, R303. -/
def execLaunch (f : XE) (s : State) : Out := .next (opLaunch f s)

/-- JOIN, R304. -/
def execJoin (f : XE) (s : State) : Out := .next (opJoin f s)

/-- EVSIG, R305. -/
def execEvsig (f : XE) (s : State) : Out := .next (opEvsig f s)

/-- EVWAIT, R305. -/
def execEvwait (f : XE) (s : State) : Out := .next (opEvwait f s)

/-- SGSET, R306. -/
def execSgset (f : XS) (s : State) : Out := .next (opSgset f s)

/-- PRIO, R307. -/
def execPrio (f : XS) (s : State) : Out := .next (opPrio f s)

end Sys2Proof.Machine
end

