-- ==== Sys2Proof/Machine/LaunchEvents.lean ====
section
/-! DEFINITION. The scheduler's side of a launch: submission (R293, R297), eligibility and placement (R292, R299, R300), completion
(R294 to R296). -/

namespace Sys2Proof.Machine

open Sys2Proof

/-! ### Accesses of the device in a context (R338) -/

/-- R332, R338: a device access of a context meets a fault. -/
def State.ctxFatal (s : State) (ctx : Nat) (code : BitVec 16) (va : Nat) : State :=
  s.fatal { code := code, ctx := ctx, tenant := ((s.ctx? ctx).map (·.tenant)).getD 0, core := 0, quarter := 0, slot := 0, engine := 0,
            seq := 0, lanes := 0, pc := 0, addr := BitVec.ofNat 56 va } 0 code (va / 65536)

/-- R330: a device access joins the fault record of its page, once. -/
def State.awaitPage (s : State) (ctx page : Nat) (k : Access) (die : Nat) : State :=
  if s.host.faults.any fun f => f.ctx == ctx && f.page == page && f.kind == k && f.die == die then s else s.joinFault ctx page k die 1 0 0

/-- R338: the physical address of a device access of a context; none, with what that sets in motion. -/
def State.deviceAddress (s : State) (ctx va : Nat) (k : Access) : Except State (Nat × State) :=
  match s.translate 0 ctx va k with
  | (.ok pa, t) => .ok (pa, t)
  | (.fault c, t) => .error (t.ctxFatal ctx c va)
  | (.replay, t) => .error (t.awaitPage ctx (va / 65536) k 0)
  | (.blocked, _) => .error s

/-- The name under which the device itself orders remote lines; no command has it. -/
def deviceReader : Nat × Nat := (256, 0)

/-- R401: a remote line read by the device: it asks for it once, and takes the reply. -/
def State.readRemote (s : State) (ctx line : Nat) : Option Line × State :=
  let ts := match s.mem.reqs.find? fun (_, q) => q.line == line && (q.keep.map (·.1)) == some deviceReader with
    | some (_, q) => (q.keep.map (·.2)).getD 0
    | none => s.gateClock line
  match s.engineRemote ctx 0 line ts (some deviceReader) none with
  | (.data d _, t) => (some d, t)
  | (_, t) => (none, t)

/-- R293, R381, R397: n bytes, within one line, read on the device's own behalf: at the home, or the copy of a counted line, or from a remote
home. -/
def State.deviceRead (s : State) (ctx pa n : Nat) : Option Nat × State :=
  let line := pa / 128
  let cut (d : Line) : Nat := lineRead d (pa % 128) n
  match Tab.get? s.mem.counted line with
  | some c => (some (cut c.data), s)
  | none =>
    if isRemote pa then let (d, t) := s.readRemote ctx line; (d.map cut, t)
    else
      let (ok, t) := s.openHome line ctx (byteMask (pa % 128) n) false false none true none
      if ok then (some (cut (t.homeView line (t.keyTag ctx))), t) else (none, t)

/-- R384: device memory that a context whose key slot is gone may not reach. -/
def State.keyBars (s : State) (ctx pa : Nat) : Bool := !isHost pa && !isRemote pa && s.keyGone ctx

/-- n bytes, within one line, read at a context's virtual address by the device. A key slot that is gone ends the context as a fault of
translation does (DEDUCED, log entry 121). -/
def State.ctxRead (s : State) (ctx va n : Nat) : Option Nat × State :=
  match s.deviceAddress ctx va .read with
  | .ok (pa, t) => if t.keyBars ctx pa then (none, t.ctxFatal ctx Code.keyGone va) else t.deviceRead ctx pa n
  | .error t => (none, t)

/-- n bytes, within one line, written at a context's virtual address by the device. -/
def State.ctxWrite (s : State) (ctx va n v : Nat) : Option State × State :=
  match s.deviceAddress ctx va .write with
  | .ok (pa, t) => if t.keyBars ctx pa then (none, t.ctxFatal ctx Code.keyGone va) else t.deviceWrite ctx pa n v
  | .error t => (none, t)

/-! ### Submission (R293, R297) -/

/-- SUBMISSION_DOORBELL, R293. -/
def execSubmissionDoorbell (q : Nat) (v : BitVec 32) (s : State) : Out :=
  match Tab.get? s.queues q with
  | none => .next s
  | some x =>
    let p : BitVec 24 := v.extractLsb' 0 24
    if !x.enabled || decide (x.capacity < (p - x.consumer).toNat) then .next s else .next (s.modQueue q fun x => { x with producer := p })

/-- R293, R297: a host record is taken into its queue, or rejected. -/
def State.takeRecord (s : State) (q : Nat) (x : Queue) (record : BitVec 2048) : State :=
  let s1 := s.modQueue q fun x => { x with consumer := x.consumer + 1 }
  let l := Launch.submitted x.ctx q 0 record none x.consumer
  let reason := match s.rejection l x.privileged with
    | some 1 => some 1
    | r => if l.get 443 436 ≠ q then some 2 else r
  match reason with
  | some c => ((s1.forgetLaunch q x.nextSub.toNat).modQueue q fun x => { x with nextSub := x.nextSub + 1 }).complete q ⟨x.consumer, c, 1, x.nextSub⟩
  | none => (s1.appendLaunch x.ctx q record none x.consumer).2

/-- RECORD_TAKE, R293: the next record of a submission ring, while the queue has room. -/
def execRecordTake (q : Nat) (s : State) : Out :=
  match Tab.get? s.queues q with
  | none => .next s
  | some x =>
    if !x.enabled || x.producer == x.consumer || decide (x.capacity ≤ x.pending.length) || s.ctxEnded x.ctx then .next s
    else
      let at_ := x.ring.toNat + 256 * (x.consumer.toNat % x.capacity)
      match s.ctxRead x.ctx at_ 128 with
      | (none, t) => .next t
      | (some a, t) =>
        match t.ctxRead x.ctx (at_ + 128) 128 with
        | (none, u) => .next u
        | (some b, u) => .next (u.takeRecord q x (BitVec.ofNat 2048 (a + 2 ^ 1024 * b)))

/-! ### Eligibility (R292, R295) -/

/-- R295: every dependence of a launch is met. -/
def State.depsMet (s : State) (l : Launch) : Bool :=
  (List.range (l.get 491 488)).all fun i =>
    reached (s.eventValue l.ctx (l.get (512 + 64 * i + 11) (512 + 64 * i))) (BitVec.ofNat 32 (l.get (512 + 64 * i + 63) (512 + 64 * i + 32)))

/-- R292: a launch at the head of its queue's unplaced launches becomes eligible. -/
def State.makeEligible (s : State) (id : Nat) : State :=
  match s.launch? id with
  | some l =>
    let modeOk := !l.fuse || (List.range 16).any fun cl => s.modeAllows l cl
    if l.status = .queued ∧ s.depsMet l ∧ modeOk then s.modLaunch id fun x => { x with status := .eligible, eligibleSince := s.elapsed } else s
  | none => s

/-- The heads of the queues' unplaced launches. -/
def State.heads (s : State) : List (Nat × Nat) := s.queues.filterMap fun (q, x) => x.pending.head?.map fun l => (q, l)

/-- R292: effective priority. -/
def Launch.effective (l : Launch) : Nat := min 3 (l.prio + l.promoted)

/-- R292: the launches that may place a block, in the order of choice. -/
def State.placeOrder (s : State) : List (Nat × Launch) :=
  let es := s.heads.filterMap fun (q, i) => (s.launch? i).bind fun l =>
    if (l.status = .eligible ∨ l.status = .running) ∧ l.preempted.isNone then
      some ((3 - l.effective) * 256 + (q + 511 - s.lastQueue) % 256, i, l) else none
  (sortNat (es.map (·.1))).filterMap fun k => (es.find? (·.1 == k)).map (·.2)

/-- R299: where the next block of a launch goes. -/
def State.findPlace (s : State) (id : Nat) (l : Launch) (ranges : Bool) : Option (Nat × Nat × Nat × List (Nat × Nat × Nat)) :=
  (List.range 1536).findSome? fun core => (s.admits id l l.nextBlock core ranges).map fun (x, q, ps) => (core, x, q, ps)

/-- R299: one attempt to place the next block of a launch; `none` when it does not fit now. -/
def State.tryPlace (s : State) (id : Nat) (l : Launch) : Option State :=
  match s.findPlace id l true, (Tab.get? s.queues l.queue).bind fun q => q.freeSlots l.warps with
  | some (core, x, q, ps), some (slots, b) =>
    match s.changeMode (clusterOf core) l.fuse with
    | (some t, _) => some (t.placeBlock id l core x q ps slots b)
    | (none, t) => some t
  | _, _ => none

/-- R300: a block that waits only for a register range names its candidate. -/
def State.noteWaiter (s : State) (id : Nat) (l : Launch) : State :=
  if l.waiter.isSome || (s.findPlace id l true).isSome then s
  else match s.findPlace id l false with
  | some (core, _) => s.modLaunch id fun x => { x with waiter := some (s.now, core, false) }
  | none => s

/-- R290: a launch with no block on this package leaves its queue at once. -/
def State.skipEmpty (s : State) (id : Nat) : State :=
  match s.launch? id with
  | some l =>
    if l.nextBlock = (s.ownBlocks l).2 ∧ l.status = .eligible then
      (s.modLaunch id fun x => { x with status := .running, time := s.homeClocks }).modQueue l.queue fun q => { q with pending := q.pending.filter (· != id) }
    else s
  | none => s

/-- BLOCK_PLACE, R292, R299: the scheduler places one block. A launch whose block does not fit lets the next one by. -/
def execBlockPlace (s : State) : Out :=
  let s1 := s.heads.foldl (fun t (_, i) => (t.makeEligible i).skipEmpty i) s
  let order := s1.placeOrder
  let s2 := order.foldl (fun t (i, l) => t.noteWaiter i l) s1
  match order.findSome? fun (i, l) => s2.tryPlace i l with
  | some t => .next t
  | none => .next s2

/-- PRIORITY_PROMOTION, R292: one more full millisecond of eligibility with a block unplaced. -/
def execPriorityPromotion (id : Nat) (s : State) : Out :=
  match s.launch? id with
  | some l =>
    if (s.heads.any fun (_, i) => i == id) && decide (l.status = .eligible ∨ l.status = .running) && decide (l.prio + l.promoted < 3) &&
        decide (l.eligibleSince + (l.promoted + 1) * msTime ≤ s.elapsed) then
      .next (s.modLaunch id fun x => { x with promoted := x.promoted + 1 })
    else .next s
  | none => .next s

/-- CANDIDATE_RESERVE, R300: a waiter of 4,096 cycles reserves its candidate. -/
def execCandidateReserve (id : Nat) (s : State) : Out :=
  match s.launch? id with
  | some l =>
    match l.waiter with
    | some (since, core, false) =>
      if since + 4096 ≤ s.now then .next (s.modLaunch id fun x => { x with waiter := some (since, core, true) }) else .next s
    | _ => .next s
  | none => .next s

/-! ### Completion (R294, R296) -/

/-- R296: every thread has exited and every command is complete. -/
def State.launchQuiet (s : State) (id : Nat) (l : Launch) : Bool :=
  decide (l.status = .running) && l.nextBlock == (s.ownBlocks l).2 && (s.blocksOf id).all (fun (_, b) => b.departed) &&
  s.allTasks.all fun (_, t) => t.launch != id

/-- R202, R296: dirty bytes of a context go home; what of them goes to peers is acknowledged, or lost. None until then. -/
def State.flushFor (s : State) (ctx : Nat) : Option State × State :=
  match s.flushCopies fun _ c => c.key == ctx with
  | (some t, _) => (if t.host.posted.any (fun (_, p) => p.ctx == ctx && p.point.isSome && !p.lost) then none else some t, t)
  | r => r

/-- LAUNCH_COMPLETE, R296: the launch's regions are released, its dirty bytes are home, and its completion is marked. -/
def execLaunchComplete (id : Nat) (s : State) : Out :=
  match s.launch? id with
  | none => .next s
  | some l =>
    if !s.launchQuiet id l then .next s
    else
      let s1 := s.releaseRegions l.ctx fun r => r.launch == id
      match s1.flushFor l.ctx with
      | (none, t) => .next t
      | (some t, _) =>
        let time := match t.launch? id with | some x => x.time | none => l.time
        let t1 := (t.modLaunch id fun x => { x with status := .complete }).complete l.queue ⟨l.ridx, 0, 0, BitVec.ofNat 24 l.sub⟩
        let t2 := if l.get 508 508 = 1 then t1.raiseEvent l.ctx (l.get 507 496) 1 time else t1
        .next { t2 with blocks := t2.blocks.filter fun (_, b) => b.launch != id }

/-- R294: a completion entry. -/
def Completion.entry (c : Completion) (q : Nat) : Nat :=
  c.sub.toNat + place 32 q + place 40 c.status.toNat + place 48 c.code.toNat + place 64 c.ridx.toNat

/-- COMPLETION_ENTRY_POST, R294. -/
def execCompletionEntryPost (q : Nat) (s : State) : Out :=
  match Tab.get? s.queues q with
  | none => .next s
  | some x =>
    match x.completions with
    | [] => .next s
    | c :: rest =>
      if x.capacity ≤ (x.cplNext - x.cplCons).toNat then .next s
      else
        let base := x.cpl.toNat
        match s.ctxWrite x.ctx (base + 16 * (x.cplNext.toNat % x.capacity)) 16 (c.entry q) with
        | (none, t) => .next t
        | (some t, _) =>
          match t.ctxWrite x.ctx (base + 16 * x.capacity) 4 (x.cplNext + 1).toNat with
          | (none, u) => .next u
          | (some u, _) =>
            let v := u.modQueue q fun x => { x with completions := rest, cplNext := x.cplNext + 1 }
            .next { v with host := v.host.interrupt (3 + x.ctx % 2045) }

/-- COMPLETION_CONSUMER_INDEX, R294. -/
def execCompletionConsumerIndex (q : Nat) (v : BitVec 32) (s : State) : Out :=
  .next (if q < 256 then { s with queues := Tab.put s.queues q { Tab.getD s.queues q Queue.unbound with cplCons := v } } else s)

/-- HOST_EVENT_RAISE, R294, R305: a host write with nonzero bits [31:12] is ignored. -/
def execHostEventRaise (ctx : Nat) (v : BitVec 64) (s : State) : Out :=
  if v.extractLsb' 12 20 = 0#20 then .next (s.raiseEvent ctx (v.toNat % 4096) (v.extractLsb' 32 32) s.homeClocks) else .next s

end Sys2Proof.Machine
end

