-- ==== Sys2Proof/Machine/Reset.lean ====
section
/-! DEFINITION. What a cold and a warm reset leave (R8, R345, R347, R415, R419, R426). -/

namespace Sys2Proof.Machine

open Sys2Proof

/-! ### A degraded part (R386, R419, R426) -/

/-- R386, R426: each of a quay die's 96 channels reaches 2 GB of its 192 GB. HLEN is four times the smallest capacity that a quay die
reaches, rounded down to a multiple of 16 MiB. -/
def hlenOf (channels : BitVec 384) : Nat :=
  let count (q : Nat) : Nat := ((List.range 96).filter fun c => channels.getLsbD (96 * q + c)).length
  4 * (min (min (count 0) (count 1)) (min (count 2) (count 3)) * 2000000000) / 2 ^ 24 * 2 ^ 24

/-- R386: channels that have failed are excluded at the next reset. -/
def Part.exclude (p : Part) (failed : List Nat) : Part :=
  if failed.isEmpty then p
  else
    let left := failed.foldl (fun m c => m &&& ~~~(BitVec.ofNat 384 (2 ^ c))) p.channels
    { p with channels := left, hlen := hlenOf left }

/-- The part's units, the fused rollback counter and the count of keys made outlast every reset; time goes on. -/
def State.resetBase (s : State) : State :=
  { State.reset with
    turn := s.turn, now := s.now, elapsed := s.elapsed
    part := s.part.exclude s.failedChannels
    mgmt := { Management.reset with rollback := s.mgmt.rollback, resetAt := s.elapsed }
    keyGens := s.keyGens }

/-- R8, R415: every field at its reset value. -/
def State.coldReset (s : State) : State := s.resetBase

/-! ### What HBM4 keeps (R415) -/

/-- Of a changed line still cached at its home, either what the home holds or what DRAM holds comes through a warm reset. -/
def State.keptLine (s : State) (line : Nat) : Line × Nat :=
  match Tab.get? s.mem.dram line with
  | some (d, k) => if Config.choices s.turn line % 2 = 0 then (d, k) else (s.homeData line, (s.home line).key)
  | none => (s.homeData line, (s.home line).key)

/-- R415, R419: the line's bytes are still to be read under their key: they lie in HBM4, and the channels of their quay die are those
they were written through. -/
def State.keepsKey (s : State) (line : Nat) : Bool :=
  (s.channelOf line).isSome && s.failedChannels.all fun c => c / 96 != homeOf line

/-- R389: after a reset each frame's location is itself, so a line is found where it lay. Bytes that no rule keeps stand under a key
that nobody has: what they read as is free (log entry 5). -/
def State.carryLine (s : State) (t : State) (line : Nat) : State :=
  if isHost (line * 128) || isRemote (line * 128) then t
  else
    let place := s.locationOf line * 512 + line % 512
    let (d, key) := s.keptLine line
    { t with mem := t.mem.writeMasked (place * 128) (2 ^ 128 - 1) (bytesOf d.toNat 128) }.putHome place
      { HomeLine.fresh with key := if s.keepsKey line then key else s.keyGens + 1, poisoned := (s.home line).poisoned }

/-- The lines of device memory that hold or have held anything. -/
def State.knownLines (s : State) : List Nat := distinct (Tab.keys s.mem.homes ++ s.mem.bytes.map fun c => c.1 / 128)

/-- R345, R347, R415, R418: a warm reset keeps the recorders, the capsule, the freeze count, the staged image and what lies in HBM4. -/
def State.warmReset (s : State) : State :=
  let base : State := { s.resetBase with
    mgmt := { s.resetBase.mgmt with staged := s.mgmt.staged }
    recorders := s.recorders.map fun (k, r) => (k, { r with stopped := false, froze := false })
    capsule := s.capsule
    fsn := s.fsn
    keyGens := s.keyGens + 1 }
  s.knownLines.foldl s.carryLine base

end Sys2Proof.Machine
end

