-- ==== Sys2Proof/Machine/Observe.lean ====
section
/-! DEFINITION. Watchpoints as a program sets them (R351, R354), marks and capabilities (R355, R357), freezes and the crash capsule
(R344 to R350, R356), the recorder's time base (R340) and the periodic flush of the lane-cycle record (R365). -/

namespace Sys2Proof.Machine

open Sys2Proof

/-! ### Watchpoints (R351, R354) -/

/-- R351: the rules of a descriptor. -/
def watchFits (d : BitVec 512) : Bool :=
  watchField d 511 384 == 0 && watchField d 127 71 == 0 && watchField d 63 56 == 0 && watchField d 68 67 != 0 &&
  decide (watchField d 66 64 ≤ 4) &&
  (List.range 4).all fun i =>
    if i ≤ watchField d 70 69 then decide (watchField d (175 + 64 * i) (160 + 64 * i) ≤ watchField d (191 + 64 * i) (176 + 64 * i))
    else watchField d (191 + 64 * i) (128 + 64 * i) == 0

/-- R354: watchpoint k, or every one, is replaced or cleared. -/
def State.changeWatch (s : State) (ctx : Nat) (change : Option Nat × Option (BitVec 512)) : State :=
  s.modCtx ctx fun c => { c with watches := match change with
    | (some k, some d) => Tab.put c.watches k d
    | (some k, none) => Tab.del c.watches k
    | (none, _) => [] }

/-- R354: the group waits until the change applies everywhere. When it comes to apply, between issue and completion, is free. -/
def State.beginChange (s : State) (e : Env) (change : Option Nat × Option (BitVec 512)) : Effect :=
  if Config.choice s.turn % 2 = 0 then .wait (.watch none) false (s.changeWatch (s.ctxOfGroup e.group) change)
  else .wait (.watch (some change)) false s

def opWatch (f : XE) (s : State) : State :=
  s.issue (shapeXE f [r2 f.a]) fun e s =>
    match s.readObject e.first (s.pair e.first f.a.toNat).toNat 64 64 with
    | (.error x, t) => e.stopAll s t x
    | (.ok v, t) =>
      let d : BitVec 512 := BitVec.ofNat 512 v
      if !watchFits d then e.stop Code.engState 0 else t.beginChange e (some (f.var8.toNat % 16), some d)

/-- WATCH, R354. -/
def execWatch (f : XE) (s : State) : Out := .next (opWatch f s)

/-- UNWATCH, R354: SIMM[4] is .all. -/
def execUnwatch (f : XS) (s : State) : Out :=
  .next (s.issue (shapeXS 8 f []) fun e s => s.beginChange e (if f.simm.getLsbD 4 then none else some (f.simm.toNat % 16), none))

/-! ### Marks and capabilities (R355, R357) -/

/-- EVMARK, R355. -/
def execEvmark (f : XS) (s : State) : Out :=
  .next (s.issue (shapeXS 8 f [r2 f.a]) fun e s =>
    .done (s.recordWarp e.first.wid 0x0F ((s.pair e.first f.a.toNat).toNat + place 64 (f.simm.toNat % 256) + place 72 e.exec.length)))

/-- R357: 8 bytes of the capability list; zero beyond its end. -/
def State.capWord (s : State) (off : Nat) : DWord := BitVec.ofNat 64 (s.mgmt.caps.toNat / 2 ^ (8 * (off / 8 * 8)))

/-- RDCAP, R357. -/
def execRdcap (f : XS) (s : State) : Out :=
  .next (s.issue { shapeXS 8 f [r2 f.d, r1 f.b] with cycles := 4 } fun e s =>
    .done (e.writePair s f.d.toNat fun m => s.capWord (s.reg m f.b.toNat).toNat))

/-! ### Beginning a freeze (R344, R356) -/

/-- R356: without .snap the context ends. -/
def State.freezeContext (s : State) (e : Env) (n : BitVec 16) : State :=
  s.fatal (s.faultRecord e.first.wid (allCauses e.exec n 0) ⟨n, 0⟩ (BitVec.ofNat 56 e.pc)) 1 n 0

/-- R356: FREEZE.snap, in a mode that may run it. -/
def State.freezeSnap (s : State) (e : Env) (n : BitVec 16) : Effect :=
  .wait (.snapshot s.fresh) false (s.beginFreeze e.core (some (s.ctxOfGroup e.group)) n 1 [])

/-- FREEZE, R356: SIMM[8] is .snap. -/
def execFreeze (f : XS) (s : State) : Out :=
  .next (s.issue { shapeXS 8 f [] with place := .ending } fun e s =>
    let n : BitVec 16 := f.simm &&& 255
    if !f.simm.getLsbD 8 then .left (s.freezeContext e n)
    else
      let bad := e.exec.filter fun m => !s.privileged m.wid
      if bad.isEmpty then s.freezeSnap e n else .fault (allCauses bad Code.privilege 0) 0)

/-- The origin of a freeze that the host asks for: no core. -/
def hostOrigin : Nat := 1536

/-- R344, R422: a freeze that the host, or the module, asks for. Its CYCLE is free: no core begins it. -/
def State.hostFreeze (s : State) : State :=
  { s with freezeReqs := s.freezeReqs ++ [⟨s.fresh, hostOrigin, none, 0, 3, BitVec.ofNat 64 (Config.choice s.turn), []⟩], fresh := s.fresh + 1 }

/-- HOST_FREEZE_REQUEST, R344, R417. -/
def execHostFreezeRequest (s : State) : Out :=
  if s.mgmt.stage = 3 then .next { s.hostFreeze with host := { s.host with notReady := false } }
  else .next { s with host := { s.host with notReady := true } }

/-! ### A freeze under way (R345, R346) -/

/-- FREEZE_REQUEST_ARRIVAL, R345, R346. -/
def execFreezeRequestArrival (core : Nat) (s : State) : Out :=
  match s.freezeReqs.find? fun r => r.origin == core with
  | none => .next s
  | some r =>
    let rest := s.freezeReqs.filter fun x => x.id != r.id
    match s.freeze with
    | none =>
      let ocore : BitVec 11 := BitVec.ofNat 11 (if core = hostOrigin then Config.choice s.turn else core)
      .next ({ s with freezeReqs := rest, fsn := s.fsn + 1,
                      freeze := some ⟨s.fsn + 1, core, r.ctx, r.cause, r.kind, r.cycle, r.faults, [r.id], ocore⟩ } : State).afterStop
    | some z =>
      if s.allStopped then .next s
      else .next { s with freezeReqs := rest, freeze := some { z with faults := (z.faults ++ r.faults).take 255, ids := z.ids ++ [r.id] } }

/-- FREEZE_MESSAGE, R345: a recorder that still records writes its FREEZE record and stops. -/
def execFreezeMessage (core : Nat) (s : State) : Out :=
  match s.freeze with
  | some z =>
    if s.part.cores.getLsbD core && !(s.recorder core).stopped then
      .next (s.stopRecorder core z.ctx z.fsn.toNat z.ocore.toNat (z.origin == core)).afterStop
    else .next s
  | none => .next s

/-- TIMEBASE_WRAP, R340. -/
def execTimebaseWrap (core : Nat) (s : State) : Out :=
  let r := s.recorder core
  if s.mgmt.stage = 3 && !r.stopped && (s.cycle core).extractLsb' 30 34 != r.timebase then .next (s.recordTimebases core s.now) else .next s

/-! ### The crash capsule (R347 to R350) -/

/-- R348: the header as assembled, but for RAWDIG, and with the fields written at retrieval. -/
def Capsule.header (c : Capsule) (cores : Nat) (rawdig : BitVec 384) (octx view tenant : Nat) : BitVec 2048 :=
  let z := c.freeze
  BitVec.ofNat 2048 (0x37504143 + place 32 0x00010000 + place 468 cores + place 480 z.fsn.toNat + place 526 z.kind +
    place 528 z.cause.toNat + place 544 z.faults.length + place 559 z.ocore.toNat + place 570 octx + place 582 view + place 592 tenant +
    place 608 c.missed + place 704 z.cycle.toNat + place 768 Config.deviceKeyId.toNat + place 1152 rawdig.toNat)

/-- R348: a core's directory entry. -/
def Capsule.entry (c : Capsule) (cores : BitVec 1536) (core : Nat) : BitVec 128 :=
  let r := Tab.getD c.recorders core Recorder.empty
  let bit (b : Bool) : Nat := if b then 1 else 0
  if cores.getLsbD core then
    BitVec.ofNat 128 (core + place 11 1 + place 12 (bit r.froze) + place 13 r.wptr.toNat + place 24 (bit r.wrapped) + place 48 r.lost +
      place 64 r.frozenAt.toNat)
  else BitVec.ofNat 128 core

/-- R348: a fault record. -/
def FaultRecord.word (r : FaultRecord) : BitVec 512 :=
  BitVec.ofNat 512 (r.code.toNat + place 16 r.ctx + place 45 r.core + place 56 r.slot + place 60 r.quarter + place 64 r.engine +
    place 72 r.seq.toNat + place 104 r.lanes.toNat + place 136 r.pc.toNat + place 192 r.addr.toNat)

/-- R349: the context belonged to the tenant at the freeze. -/
def Capsule.owns (c : Capsule) (tenant : BitVec 16) (ctx : Nat) : Bool := Tab.get? c.tenants ctx == some tenant

def Capsule.hash (c : Capsule) (ctx : Nat) : Nat := (Config.hash32 c.freeze.fsn (BitVec.ofNat 12 ctx)).toNat

/-- R349: a record of another tenant's context keeps TYPE and TIME. -/
def Capsule.redactRecord (c : Capsule) (tenant : BitVec 16) (w : BitVec 128) : BitVec 128 :=
  let ctx := (w.extractLsb' 32 12).toNat
  if c.owns tenant ctx then w else BitVec.ofNat 128 ((w.extractLsb' 0 32).toNat + place 32 0xFFF + place 50 (c.hash ctx))

/-- R349: a fault record of another tenant's context. -/
def Capsule.redactFault (c : Capsule) (tenant : BitVec 16) (r : FaultRecord) : BitVec 512 :=
  if c.owns tenant r.ctx then r.word
  else BitVec.ofNat 512 (place 8 (r.code.toNat / 256) + place 16 0xFFF + place 72 (c.hash r.ctx))

def padTo {α : Type} (n : Nat) (x : α) (l : List α) : List α := l ++ List.replicate (n - l.length) x

/-- R347: the bytes that a digest covers, 16 at a time. -/
def View.words (v : View) : List (BitVec 128) :=
  let cut (w n x : Nat) : List (BitVec 128) := (List.range n).map fun i => BitVec.ofNat 128 (x % 2 ^ w / 2 ^ (128 * i))
  cut 2048 16 v.header.toNat ++ v.directory ++ v.faults.flatMap (fun f => cut 512 4 f.toNat) ++ List.replicate 1520 0 ++
  (List.range 1536).flatMap fun c => (List.range 2048).map fun k => Tab.getD (Tab.getD v.rings c []) k 0

/-- R347: a view before it is signed. -/
def State.viewOf (s : State) (c : Capsule) (rawdig : BitVec 384) (tenant : Option (BitVec 16)) : View :=
  let octx := match c.freeze.ctx, tenant with
    | some x, some t => if c.owns t x then x else 0xFFF
    | some x, none => x
    | none, some _ => 0xFFF
    | none, none => 0
  { header := c.header s.enabledCores.length rawdig octx (if tenant.isSome then 1 else 0) ((tenant.map (·.toNat)).getD 0)
    directory := (List.range 1536).map (c.entry s.part.cores)
    faults := padTo 256 0 (c.freeze.faults.map fun r => match tenant with | some t => c.redactFault t r | none => r.word)
    rings := c.recorders.map fun (k, r) => (k, match tenant with
      | some t => r.ring.map fun (i, w) => (i, c.redactRecord t w)
      | none => r.ring)
    signature := 0 }

/-- CAPSULE_ASSEMBLY, R345, R347. RAWDIG is the digest of the provider view with RAWDIG itself zero (log entry 26). A warm reset
that arrived meanwhile takes effect now. -/
def execCapsuleAssembly (s : State) : Out :=
  match s.freeze, s.capsule with
  | some z, none =>
    if s.allStopped then
      let c : Capsule := ⟨z, s.recorders, s.ctxs.map (fun (k, x) => (k, x.tenant)), 0, 0⟩
      let d := Config.sha384 (s.viewOf c 0 none).words
      let t := { s with capsule := some { c with rawdig := d } }.restartRecorders
      .next (if s.mgmt.resetPending then t.warmReset else t)
    else .next s
  | _, _ => .next s

/-- R350: the credential that a view needs. -/
def viewAllowed (tenant : BitVec 16) (cred : Credential) : Bool :=
  if tenant = 0 then cred == .provider else cred == .tenant tenant

/-- CAPSULE_RETRIEVE, R349, R350: tenant 0 names the provider view. -/
def execCapsuleRetrieve (tenant : BitVec 16) (cred : Credential) (s : State) : Out :=
  let v := match s.capsule with
    | some c =>
      if viewAllowed tenant cred then
        let v := s.viewOf c c.rawdig (if tenant = 0 then none else some tenant)
        some { v with signature := Config.sign (Config.sha384 v.words) }
      else none
    | none => none
  .next { s with host := { s.host with view := v, notReady := false } }

/-- CAPSULE_ACKNOWLEDGE, R350. -/
def execCapsuleAcknowledge (fsn : BitVec 32) (cred : Credential) (s : State) : Out :=
  let drop : Bool := match s.capsule with | some c => c.freeze.fsn == fsn && cred == .provider | none => false
  .next { s with capsule := if drop then none else s.capsule, host := { s.host with notReady := false } }

/-! ### Lane cycles (R365) -/

/-- LC_PERIODIC_FLUSH, R365. -/
def execLcPeriodicFlush (core : Nat) (s : State) : Out :=
  let period := (s.now - s.mgmt.released) / 65536
  if period ≤ Tab.getD s.lcFlushed core 0 then .next s
  else
    let t := (s.laneCycles.filter fun (k, _) => k / 4096 == core).foldl (fun t (k, _) => t.flushLanes core (k % 4096)) s
    if t.laneCycles.all fun (k, _) => k / 4096 != core then .next { t with lcFlushed := Tab.put t.lcFlushed core period } else .next t

end Sys2Proof.Machine
end

