-- ==== Sys2Proof/Machine/System.lean ====
section
/-! DEFINITION. System registers (R338, R343, R364, R403): what each reads as and what a write of each does; queue binding (R293), key
slots (R385), migrations and swaps as they start (R389, R393), and SRD and SWR. -/

namespace Sys2Proof.Machine

open Sys2Proof

/-- What a write of a system register comes to. -/
inductive SysWrite where
  | written (t : State)
  /-- its effect is not complete; what has been set in motion for it -/
  | waits (t : State)
  /-- R338: SYSSTATE, with nothing written -/
  | breaks
  deriving DecidableEq, Repr

/-- R338: what the event of a write leaves. -/
def State.afterWrite (s : State) (w : SysWrite) : State := match w with | .written t => t | .waits t => t | .breaks => s

/-- A value stands within a stated limit, or breaks it. -/
def sysIf (ok : Bool) (t : State) : SysWrite := if ok then .written t else .breaks

/-- R338: a power of two between two bounds. -/
def powerOfTwo (lo hi v : Nat) : Bool := decide (lo ≤ v) && decide (v ≤ hi) && v == 2 ^ Nat.log2 v

/-! ### Contexts and queues -/

/-- A context before anything of it is written. R403: MEMQOS has a reset value; the others have none (log entry 10). -/
def Ctx.created : Ctx where
  live := true
  ended := false
  ptbase := 0
  replay := false
  svcbase := 0
  svccnt := 32
  tenant := 0
  lcbase := 0
  lcctl := 0
  lcbins := []
  memqos := 0xC8E
  misses := []
  hpsel := 0
  events := []
  eventTimes := []
  groups := []
  regions := []
  watches := []
  hints := []
  svcSeq := 0
  svc := []
  svcRung := []

/-- A context is made by the first write of a register of it, or by the binding of a queue to it (log entry 27). -/
def State.withCtx (s : State) (ctx : Nat) : State :=
  if 4096 ≤ ctx ∨ (Tab.get? s.ctxs ctx).isSome then s else { s with ctxs := Tab.put s.ctxs ctx Ctx.created }

def State.setCtx (s : State) (ctx : Nat) (f : Ctx → Ctx) : State := (s.withCtx ctx).modCtx ctx f

/-- R338: the queue that QSEL selects. -/
def State.selected (s : State) : Queue := Tab.getD s.queues s.sys.qsel.toNat Queue.unbound

def State.setSelected (s : State) (f : Queue → Queue) : State := { s with queues := Tab.put s.queues s.sys.qsel.toNat (f s.selected) }

/-- R293: the selected queue holds a launch not yet complete. -/
def State.queueBusy (s : State) : Bool :=
  s.launches.any fun (_, l) => l.queue == s.sys.qsel.toNat && l.status != .complete && l.status != .fatal

/-- R293: a write of QBIND. -/
def State.writeQbind (s : State) (v : BitVec 32) : SysWrite :=
  if v.toNat / 2 ^ 18 ≠ 0 ∨ 8 < field v.toNat 17 14 ∨ s.queueBusy then .breaks
  else
    let t := s.setSelected fun q => { q with bind := v }
    .written (if v.getLsbD 12 then t.withCtx (v.toNat % 4096) else t)

/-! ### Clocks and translations (R338) -/

/-- R338: no warp of any context, other than the issuing one, is resident or parked. -/
def State.quietBut (s : State) (issuer : Option Nat) : Bool :=
  s.warps.all fun (i, w) => some i == issuer || (match w.residence with | .saved _ | .released => true | _ => false)

/-- Every local clock of the package at one value. -/
def localClocks (v : LTime) : Tab LTime :=
  if v = 0 then []
  else ((List.range 1536).map fun c => (l1ClockKey c, v)) ++ ((List.range 1536).map fun i => (fusedClockKey (i / 96) (i % 96), v)) ++
    ((List.range 384).map fun i => (l2ClockKey (i / 96) (i % 96), v))

/-- R338: a write of a home clock. Every copy of the die's lines goes, with its dirty bytes, and every time at the home and every local
clock takes the value. -/
def State.writeHclk (s : State) (issuer : Option Nat) (qd : Nat) (v : LTime) : SysWrite :=
  if !s.quietBut issuer then .breaks
  else
    .written { s with mem := { s.mem with
      copies := s.mem.copies.filter fun (k, _) => homeOf (k % 2 ^ 49) != qd
      homes := s.mem.homes.map fun (l, h) =>
        (l, if homeOf l = qd then { h with wts := v, rts := v, dir := match h.dir with | .diex _ => .home | d => d } else h)
      homeBase := Tab.set 0 s.mem.homeBase qd v
      clocks := Tab.set 0 ((s.mem.clocks.filter fun (k, _) => decide (k < 4)) ++ localClocks v) qd v
      moved := [] } }

/-- R338: a context's translations of a page leave every TLB. -/
def State.writeTlbinv (s : State) (ctx : Nat) (va : BitVec 64) : State :=
  { s with mem := { s.mem with tlb := s.mem.tlb.filter fun e => !(e.ctx == ctx && e.page == va.toNat / 2 ^ e.bits) } }

/-- R332, R338: the context ends, with the value as code. -/
def State.writeCtxend (s : State) (ctx : Nat) (issuer : Option Nat) (v : BitVec 32) : State :=
  match s.ctx? ctx with
  | none => s
  | some c =>
    let w := issuer.bind s.warp?
    let core := (w.map (·.core)).getD 0
    s.fatal { code := v.extractLsb' 0 16, ctx := ctx, tenant := c.tenant, core := core, quarter := ((w.map (·.quarterOf)).getD 0) % 4,
              slot := (w.map (·.slot)).getD 0, engine := 0, seq := 0, lanes := 0, pc := (w.map (·.pcOf)).getD 0, addr := 0 } 2
      (v.extractLsb' 0 16) 0

/-! ### The lane-cycle block (R363 to R365) -/

/-- R363: one line of bins: eight pairs LO, HI. -/
def binsOfLine (v : Nat) : List (BitVec 64 × BitVec 64) :=
  (List.range 8).map fun i => (BitVec.ofNat 64 (v / 2 ^ (128 * i)), BitVec.ofNat 64 (v / 2 ^ (128 * i + 64)))

/-- R338, R363: the bins at a virtual address of the context; none, with what that sets in motion. -/
def State.readBins (s : State) (ctx va : Nat) : Nat → Option (List (BitVec 64 × BitVec 64)) × State
  | 0 => (some [], s)
  | n + 1 =>
    match s.ctxRead ctx va 128 with
    | (none, t) => (none, t)
    | (some v, t) =>
      match t.readBins ctx (va + 128) n with
      | (some l, u) => (some (binsOfLine v ++ l), u)
      | (none, u) => (none, u)

/-- R363: a write of LCBASE rereads the bins and clears no counter. -/
def State.writeLcbase (s : State) (ctx : Nat) (v : BitVec 64) : SysWrite :=
  if v.toNat % 4096 ≠ 0 then .breaks
  else if v = 0 then .written (s.setCtx ctx fun c => { c with lcbase := 0, lcbins := [] })
  else match (s.withCtx ctx).readBins ctx v.toNat 8 with
    | (some l, t) => .written (t.modCtx ctx fun c => { c with lcbase := v, lcbins := l })
    | (none, t) => .waits t

/-- R365: every core's counts of the context are added. -/
def State.writeLcflush (s : State) (ctx : Nat) : SysWrite :=
  let t := s.flushAllLanes ctx
  if t.lanesFlushed ctx then .written t else .waits t

/-- R364: ENABLE; LCERR, which a write of 0 clears. -/
def State.writeLcctl (s : State) (ctx : Nat) (v : BitVec 32) : SysWrite :=
  sysIf (decide (v.toNat < 4)) (s.setCtx ctx fun c => { c with lcctl := (v &&& 1) ||| (c.lcctl &&& v &&& 2) })

/-! ### Key slots (R384, R385) -/

/-- R385: no warp of the context is resident or parked, and no engine command of it is outstanding. -/
def State.keyFree (s : State) (slot : Nat) : Bool :=
  (s.warps.all fun (i, w) => s.ctxOf i != slot || (match w.residence with | .saved _ | .released => true | _ => false)) &&
  (s.engines.all fun (_, q) => q.tasks.all fun t => t.ctx != slot) && s.migrations.all fun m => m.ctx != slot

def State.selectKey (s : State) (slot : Nat) : State := { s with sys := { s.sys with keySlot := slot } }

/-- R385: Generate. A fresh key is one that no slot has had. -/
def State.keyGenerate (s : State) (slot : Nat) : SysWrite :=
  let t := s.selectKey slot
  sysIf (s.keyFree slot) { t with keys := Tab.put t.keys slot (.live (t.keyGens + 1)), keyGens := t.keyGens + 1 }

/-- R385: a line of the slot's context at a home goes without write-back: what DRAM held stands. -/
def State.discardLine (s : State) (line : Nat) : State :=
  match Tab.get? s.mem.dram line with
  | some (d, key) =>
    let mem := s.mem.writeMasked (line * 128) (2 ^ 128 - 1) (bytesOf d.toNat 128)
    ({ s with mem := { mem with dram := Tab.del mem.dram line } } : State).putHome line { s.home line with key := key, owner := none, cached := false, dirty := 0 }
  | none => s.putHome line { s.home line with owner := none, cached := false, dirty := 0 }

/-- R385: Destroy. -/
def State.keyDestroy (s : State) (slot : Nat) : SysWrite :=
  let lines := (s.mem.homes.filter fun (_, h) => h.owner == some slot).map (·.1)
  let t := (lines.foldl State.discardLine s).selectKey slot
  sysIf (s.keyFree slot) { t with keys := Tab.put t.keys slot .destroyed }

/-- R385: Plain. -/
def State.keyPlain (s : State) (slot : Nat) : SysWrite :=
  let t := s.selectKey slot
  sysIf (s.keyFree slot) { t with keys := Tab.put t.keys slot .plain }

/-- R403: a write of KEYCTL. -/
def State.writeKeyctl (s : State) (v : BitVec 32) : SysWrite :=
  let slot := v.toNat % 4096
  if v.toNat / 2 ^ 14 ≠ 0 then .breaks
  else match field v.toNat 13 12 with
  | 1 => s.keyGenerate slot
  | 2 => s.keyDestroy slot
  | 3 => s.keyPlain slot
  | _ => .breaks

def KeySlot.code : KeySlot → Nat
  | .empty => 0
  | .live _ => 1
  | .plain => 2
  | .destroyed => 3

/-! ### Hot-page counters and missed deadlines (R388, R391, R403) -/

def State.writeHpsel (s : State) (ctx : Nat) (v : BitVec 64) : State := s.setCtx ctx fun c => { c with hpsel := v.toNat / 65536 }

/-- R403: the selected counter takes a value, and is created when the page has none. -/
def State.writeHpcnt (s : State) (ctx : Nat) (v : BitVec 32) : State :=
  match s.ctx? ctx with
  | none => s
  | some c =>
    let i := match counterOf s.host.counters ctx c.hpsel with | some (i, _) => i | none => counterSlot s.host.counters
    { s with host := { s.host with counters := Tab.put s.host.counters i ⟨ctx, c.hpsel, v.toNat % 65536⟩ } }

def State.clearMiss (s : State) (ctx n : Nat) : State := s.setCtx ctx fun c => { c with misses := Tab.del c.misses n }

/-! ### Migrations and swaps (R389, R393) -/

/-- R389, R393: a descriptor of 32 bytes, read at its home; none, with what that sets in motion. -/
def State.readDescriptor (s : State) (pa : Nat) : Option Nat × State := s.deviceRead packageUse (s.localise pa) 32

def State.postNotice (s : State) (n : Notice) : State := { s with host := { s.host with notices := s.host.notices ++ [n] } }

/-- R426: a 64 KiB frame of this package's device memory. -/
def State.deviceFrame (s : State) (pa : Nat) : Bool := pa % 65536 == 0 && s.backed pa && !isHost pa && !isRemote pa

/-- The lines of a frame. -/
def frameLinesOf (pa : Nat) : List Nat := (List.range 512).map fun i => pa / 128 + i

/-- R266, R341: the payload of TTSTART and TTEND of a migration. -/
def Migration.payload (m : Migration) : Nat := m.ctx + place 12 (m.die * 64 + 48) + place 20 m.seq.toNat

/-- R341: a record of a migration that a core has issued. -/
def State.recordMigration (s : State) (m : Migration) (ty st : Nat) : State :=
  match m.core with | some c => s.record c 4 0 m.ctx ty (m.payload + place 52 st) | none => s

/-- R266, R393: a migration starts, as a tile task: every line of the destination enters MIGRATING, die-exclusive leases recalled first. -/
def State.startMigration (s : State) (ctx src dst : Nat) (core : Option Nat) : State :=
  let lines := frameLinesOf dst
  let t := lines.foldl (fun t l => let u := t.recall l; u.putHome l { u.home l with dir := .migrating }) s
  let q := homeQuay dst
  let k := queueKey (q * 64 + 48) ctx
  let n := (s.engineQueue k).nextSeq
  let at_ := t.clock (homeClockKey q)
  let m : Migration := ⟨src, dst, ctx, q, BitVec.ofNat 32 n, at_, at_, 0, [], core, false, false⟩
  ({ t with migrations := t.migrations ++ [m] }.modEngine k fun x => { x with nextSeq := (n + 1) % 2 ^ 32 }).recordMigration m 0x0D 0

/-- R393: a write of MIGCMD. A line of the destination that an engine owns is first written by its engine (R242). -/
def State.writeMigcmd (s : State) (issuer : Option Nat) (v : BitVec 64) : SysWrite :=
  if v.toNat % 32 ≠ 0 ∨ 2 ^ 56 ≤ v.toNat then .breaks
  else match s.readDescriptor v.toNat with
  | (none, t) => .waits t
  | (some d, t) =>
    let src := t.localise (field d 55 0)
    let dst := t.localise (field d 119 64)
    let ctx := field d 139 128
    let bad (code : BitVec 32) : SysWrite :=
      .written (t.postNotice ⟨2, ctx, BitVec.ofNat 56 src, BitVec.ofNat 56 dst, 0, code⟩)
    if field d 255 140 ≠ 0 ∨ field d 127 120 ≠ 0 ∨ field d 63 56 ≠ 0 ∨ !t.deviceFrame dst ∨ src % 65536 ≠ 0 ∨
        !(isHost src || t.deviceFrame src) then bad 3
    else if (frameLinesOf dst).any fun l => match (t.home l).dir with | .engine _ | .migrating => true | _ => false then .waits t
    else .written (t.startMigration ctx src dst ((issuer.bind t.warp?).map (·.core)))

/-- R389: a frame lies in HBM4, or in the second tier. -/
def State.inHbm (s : State) (pa : Nat) : Bool := decide (s.locationOf (pa / 128) < 2 ^ 35)

/-- R389: a write of SWAPCMD. -/
def State.writeSwapcmd (s : State) (v : BitVec 64) : SysWrite :=
  if v.toNat % 32 ≠ 0 ∨ 2 ^ 56 ≤ v.toNat then .breaks
  else match s.readDescriptor v.toNat with
  | (none, t) => .waits t
  | (some d, t) =>
    let near := t.localise (field d 55 0)
    let far := t.localise (field d 119 64)
    let fits := d / 2 ^ 120 == 0 && field d 63 56 == 0 && t.deviceFrame near && t.deviceFrame far &&
      homeQuay near == homeQuay far && t.inHbm near && !t.inHbm far
    if fits then .written { t with swaps := Tab.put t.swaps t.fresh ⟨frameOf (near / 128), frameOf (far / 128), 0⟩, fresh := t.fresh + 1 }
    else .written (t.postNotice ⟨3, 0, BitVec.ofNat 56 far, BitVec.ofNat 56 near, 0, 3⟩)

/-- R401, R403. -/
def State.writeCauskid (s : State) (v : BitVec 32) : SysWrite :=
  sysIf (decide (v.toNat < 512) && s.ctxs.isEmpty) { s with sys := { s.sys with causkid := v } }

/-! ### Every register (R338, R343, R364, R403) -/

/-- Selectors that SRD reads. -/
def sysReadable (sel : Nat) : Bool :=
  decide (sel ≤ 3) || [0x08, 0x09, 0x0A, 0x0C, 0x0D, 0x10, 0x11, 0x12, 0x13, 0x14, 0x15, 0x16, 0x17, 0x19, 0x1A, 0x20, 0x21, 0x22, 0x23,
    0x25, 0x28, 0x29, 0x2A, 0x2B, 0x2C, 0x2D, 0x30, 0x31, 0x32, 0x34, 0x38, 0x39].contains sel

/-- Selectors that SWR writes. -/
def sysWritable (sel : Nat) : Bool :=
  decide (sel ≤ 3) || [0x08, 0x09, 0x0A, 0x0B, 0x0C, 0x0D, 0x10, 0x11, 0x12, 0x13, 0x14, 0x15, 0x16, 0x17, 0x18, 0x19, 0x1A, 0x20, 0x21,
    0x22, 0x23, 0x24, 0x25, 0x28, 0x29, 0x2A, 0x2B, 0x2C, 0x2D, 0x30, 0x31, 0x32, 0x33, 0x34, 0x35, 0x36, 0x38].contains sel

/-- Registers of 64 bits. -/
def sysWide (sel : Nat) : Bool :=
  [0x08, 0x09, 0x0B, 0x0C, 0x10, 0x15, 0x19, 0x1A, 0x20, 0x23, 0x31, 0x33, 0x35, 0x36, 0x39].contains sel

/-- R403: LINKST, the ports from port 0 up. -/
def State.linkStatus (s : State) : Nat :=
  packNat 7 ((List.range 9).map fun p => match Tab.get? s.host.ports p with
    | some x => x.status + place 2 x.width + place 4 x.poisoned
    | none => 0)

/-- What a register reads as, for a thread of a context. -/
def State.sysRead (s : State) (ctx sel : Nat) : Nat :=
  let own (f : Ctx → Nat) : Nat := match s.ctx? ctx with | some c => f c | none => 0
  match sel with
  | 0x00 | 0x01 | 0x02 | 0x03 => (s.clock (homeClockKey sel)).toNat
  | 0x08 => s.sys.khandler.toNat
  | 0x09 => own fun c => c.ptbase.toNat
  | 0x0A => own fun c => if c.replay then 1 else 0
  | 0x0C => own fun c => c.svcbase.toNat
  | 0x0D => own fun c => c.svccnt.toNat
  | 0x10 => s.sys.fqbase.toNat
  | 0x11 => s.sys.fqcnt.toNat
  | 0x12 => s.sys.retrain.toNat
  | 0x13 => s.sys.flowmode.toNat
  | 0x14 => s.sys.qsel.toNat
  | 0x15 => s.selected.save.toNat
  | 0x16 => s.selected.slots.toNat
  | 0x17 => s.selected.bind.toNat
  | 0x19 => s.selected.ring.toNat
  | 0x1A => s.selected.cpl.toNat
  | 0x20 => s.sys.rdbase.toNat
  | 0x21 => s.sys.rdcnt.toNat
  | 0x22 => own fun c => c.tenant.toNat
  | 0x23 => own fun c => c.lcbase.toNat
  | 0x25 => own fun c => c.lcctl.toNat
  | 0x28 => (Tab.getD s.keys s.sys.keySlot .empty).code
  | 0x29 => own fun c => c.memqos.toNat
  | 0x2A | 0x2B | 0x2C | 0x2D => own fun c => (Tab.getD c.misses (sel - 0x2A) 0).toNat
  | 0x30 => s.sys.hpthresh.toNat
  | 0x31 => s.sys.hpnbase.toNat
  | 0x32 => s.sys.hpncnt.toNat
  | 0x34 => own fun c => match counterOf s.host.counters ctx c.hpsel with | some (_, x) => x.count | none => 0
  | 0x38 => s.sys.causkid.toNat
  | 0x39 => s.linkStatus
  | _ => 0

/-- R338, R343, R403: the registers that hold a value and do nothing else. -/
def State.writePlain (s : State) (ctx sel : Nat) (v : BitVec 64) : SysWrite :=
  let w : BitVec 32 := v.extractLsb' 0 32
  let sys (ok : Bool) (f : SysRegs → SysRegs) : SysWrite := sysIf ok { s with sys := f s.sys }
  match sel with
  | 0x08 => sys true fun r => { r with khandler := v }
  | 0x09 => sysIf (v.toNat % 131072 == 0) (s.setCtx ctx fun c => { c with ptbase := v })
  | 0x0A => sysIf (decide (w.toNat < 2)) (s.setCtx ctx fun c => { c with replay := w.getLsbD 0 })
  | 0x0C => .written (s.setCtx ctx fun c => { c with svcbase := v })
  | 0x0D => sysIf (powerOfTwo 32 4096 w.toNat) (s.setCtx ctx fun c => { c with svccnt := w })
  | 0x10 => sys true fun r => { r with fqbase := v }
  | 0x11 => sys (powerOfTwo 64 65536 w.toNat) fun r => { r with fqcnt := w }
  | 0x12 => sys true fun r => { r with retrain := w }
  | 0x13 => sys true fun r => { r with flowmode := w }
  | 0x14 => sys (decide (w.toNat < 256)) fun r => { r with qsel := w }
  | 0x15 => .written (s.setSelected fun q => { q with save := v })
  | 0x16 => .written (s.setSelected fun q => { q with slots := w })
  | 0x19 => sysIf (v.toNat % 4096 == 0 && !s.queueBusy) (s.setSelected fun q => { q with ring := v })
  | 0x1A => sysIf (v.toNat % 256 == 0 && !s.queueBusy) (s.setSelected fun q => { q with cpl := v })
  | 0x20 => sys (v.toNat % 4096 == 0) fun r => { r with rdbase := v }
  | 0x21 => sys (powerOfTwo 256 65536 w.toNat) fun r => { r with rdcnt := w }
  | 0x22 => sysIf (decide (0 < w.toNat) && decide (w.toNat < 65536)) (s.setCtx ctx fun c => { c with tenant := w.extractLsb' 0 16 })
  | 0x29 => sysIf (w.toNat / 2 ^ 20 == 0 && w.toNat % 4 != 0 && w.toNat / 4 % 4 != 0) (s.setCtx ctx fun c => { c with memqos := w })
  | 0x30 => sys (decide (w.toNat < 65536)) fun r => { r with hpthresh := w }
  | 0x31 => sys true fun r => { r with hpnbase := v }
  | 0x32 => sys (powerOfTwo 64 65536 w.toNat) fun r => { r with hpncnt := w }
  | _ => .breaks

/-- A write of a register, by a warp or by none. -/
def State.sysWrite (s : State) (ctx : Nat) (issuer : Option Nat) (sel : Nat) (v : BitVec 64) : SysWrite :=
  let w : BitVec 32 := v.extractLsb' 0 32
  match sel with
  | 0x00 | 0x01 | 0x02 | 0x03 => s.writeHclk issuer sel (v.extractLsb' 0 24)
  | 0x0B => .written (s.writeTlbinv ctx v)
  | 0x17 => s.writeQbind w
  | 0x18 => .written (s.writeCtxend ctx issuer w)
  | 0x23 => s.writeLcbase ctx v
  | 0x24 => s.writeLcflush ctx
  | 0x25 => s.writeLcctl ctx w
  | 0x28 => s.writeKeyctl w
  | 0x2A | 0x2B | 0x2C | 0x2D => .written (s.clearMiss ctx (sel - 0x2A))
  | 0x33 => .written (s.writeHpsel ctx v)
  | 0x34 => .written (s.writeHpcnt ctx w)
  | 0x35 => s.writeMigcmd issuer v
  | 0x36 => s.writeSwapcmd v
  | 0x38 => s.writeCauskid w
  | _ => s.writePlain ctx sel v

/-! ### SRD and SWR (R338) -/

def opSrd (f : XS) (s : State) : State :=
  let sel := f.simm.toNat
  s.issue { shapeXS 8 f [if sysWide sel then r2 f.d else r1 f.d] with fits := sysReadable sel } fun e s =>
    let bad := if sel ≤ 3 ∨ sel = 0x25 then [] else e.exec.filter fun m => !s.privileged m.wid
    if !bad.isEmpty then .fault (allCauses bad Code.privilege 0) 0
    else if sysWide sel then .done (e.writePair s f.d.toNat fun m => BitVec.ofNat 64 (s.sysRead (s.ctxOf m.wid) sel))
    else .done (e.write s f.d.toNat fun m => BitVec.ofNat 32 (s.sysRead (s.ctxOf m.wid) sel))

/-- SRD, R338. -/
def execSrd (f : XS) (s : State) : Out := .next (opSrd f s)

/-- The value that a thread's SWR writes. -/
def State.swrValue (s : State) (f : XS) (m : Member) : BitVec 64 :=
  if sysWide f.simm.toNat then s.pair m f.b.toNat else (s.reg m f.b.toNat).zeroExtend 64

/-- R338: why a thread's SWR is not performed. -/
def State.swrStop (s : State) (f : XS) (m : Member) : Option Cause :=
  if f.simm ≠ 0x25 ∧ !s.privileged m.wid then some (m, ⟨Code.privilege, 0⟩)
  else match s.sysWrite (s.ctxOf m.wid) (some m.wid) f.simm.toNat (s.swrValue f m) with
    | .breaks => some (m, ⟨Code.sysState, 0⟩)
    | _ => none

def opSwr (f : XS) (s : State) : State :=
  let sel := f.simm.toNat
  s.issue { shapeXS 8 f [if sysWide sel then r2 f.b else r1 f.b] with fits := sysWritable sel } fun e s =>
    let bad := e.exec.filterMap (s.swrStop f)
    if bad.isEmpty then .wait (.swr f 0) false s else .fault bad 0

/-- SWR, R338: the group waits until its writes have taken effect, one thread after the other. -/
def execSwr (f : XS) (s : State) : Out := .next (opSwr f s)

/-- One attempt at the next write of a waiting SWR. -/
def State.trySwr (s : State) (id : Nat) (x : Wait) (f : XS) (served : Nat) : State :=
  let exec := s.waitExec x f.guard f.sense
  match exec.drop served with
  | [] => s.endWait id
  | m :: rest =>
    match s.sysWrite (s.ctxOf m.wid) (some m.wid) f.simm.toNat (s.swrValue f m) with
    | .waits t => t
    | .breaks => s.faultWait id x [(m, ⟨Code.sysState, 0⟩)] 0
    | .written t =>
      if t.ctxEnded (s.ctxOf m.wid) then t
      else if rest.isEmpty then t.endWait id
      else { t with waits := Tab.put t.waits id { x with kind := .swr f (served + 1) } }

/-! ### Writes by privileged software, each as a step of its own -/

/-- R338, R363, R365, R389, R393: the host's write of a register; one whose effect is not complete goes on by itself. -/
def State.hostWrite (s : State) (ctx sel : Nat) (v : BitVec 64) : State :=
  match s.sysWrite ctx none sel v with
  | .written t => t
  | .waits t => { t with host := { t.host with writes := t.host.writes ++ [(ctx, sel, v)] } }
  | .breaks => s

/-- The host's writes that wait are tried again. -/
def State.pumpWrites (s : State) : State :=
  s.host.writes.foldl (fun t (ctx, sel, v) => t.hostWrite ctx sel v) { s with host := { s.host with writes := [] } }

/-- HCLK_WRITE, R338, R404. -/
def execHclkWrite (qd : Nat) (v : BitVec 24) (s : State) : Out := .next (if qd < 4 then s.afterWrite (s.writeHclk none qd v) else s)

/-- TLBINV, R338. -/
def execTlbinv (ctx : Nat) (v : BitVec 64) (s : State) : Out := .next (s.writeTlbinv ctx v)

/-- CTXEND, R332, R338. -/
def execCtxend (ctx : Nat) (v : BitVec 32) (s : State) : Out := .next (s.writeCtxend ctx none v)

/-- QBIND, R293. -/
def execQbind (v : BitVec 32) (s : State) : Out := .next (s.afterWrite (s.writeQbind v))

/-- LCBASE, R363. -/
def execLcbase (ctx : Nat) (v : BitVec 64) (s : State) : Out := .next (s.hostWrite ctx 0x23 v)

/-- LCFLUSH, R365. -/
def execLcflush (ctx : Nat) (s : State) : Out := .next (s.hostWrite ctx 0x24 0)

/-- LCCTL, R364. -/
def execLcctl (ctx : Nat) (v : BitVec 32) (s : State) : Out := .next (s.afterWrite (s.writeLcctl ctx v))

/-- KEYCTL_GENERATE, R385. -/
def execKeyctlGenerate (slot : Nat) (s : State) : Out := .next (s.afterWrite (s.keyGenerate (slot % 4096)))

/-- KEYCTL_DESTROY, R385. -/
def execKeyctlDestroy (slot : Nat) (s : State) : Out := .next (s.afterWrite (s.keyDestroy (slot % 4096)))

/-- KEYCTL_PLAIN, R385. -/
def execKeyctlPlain (slot : Nat) (s : State) : Out := .next (s.afterWrite (s.keyPlain (slot % 4096)))

/-- MISS_CLEAR, R403. -/
def execMissClear (ctx n : Nat) (s : State) : Out := .next (if n < 4 then s.clearMiss ctx n else s)

/-- HPSEL, R403. -/
def execHpsel (ctx : Nat) (v : BitVec 64) (s : State) : Out := .next (s.writeHpsel ctx v)

/-- HPCNT, R403. -/
def execHpcnt (ctx : Nat) (v : BitVec 32) (s : State) : Out := .next (s.writeHpcnt ctx v)

/-- MIGCMD, R393. -/
def execMigcmd (v : BitVec 64) (s : State) : Out := .next (s.hostWrite 0 0x35 v)

/-- SWAPCMD, R389. -/
def execSwapcmd (v : BitVec 64) (s : State) : Out := .next (s.hostWrite 0 0x36 v)

/-- CAUSKID, R401, R403. -/
def execCauskid (v : BitVec 32) (s : State) : Out := .next (s.afterWrite (s.writeCauskid v))

/-- SYSREG_WRITE, R338, R343, R403: any other register; an undefined selector, or one that is only read, changes nothing. -/
def execSysregWrite (ctx : Nat) (sel : BitVec 16) (v : BitVec 64) (s : State) : Out :=
  .next (if sysWritable sel.toNat then s.hostWrite ctx sel.toNat v else s)

end Sys2Proof.Machine
end

