-- ==== Sys2Proof/Machine/Convert.lean ====
section
/-! DEFINITION. Conversions, packing and block quantisation (R102 to R104, R124, R125). -/

namespace Sys2Proof.Machine

open Sys2Proof

/-- R88: the destination type in SCOPE[3:0]. -/
def dstType (f : X3) : Nat := (f.scope.extractLsb' 0 4).toNat

/-- R102: types that take a pair. -/
def wideInt (ty : Nat) : Bool := ty == 3 || ty == 4

/-- R102: I2F. -/
def opI2f (len : Nat) (f : X3) (s : State) : State :=
  let wide := wideInt f.ty.toNat
  let sh := shapeX3 len f [r1 f.d, if wide then r2 f.a else r1 f.a]
  s.issue { sh with cycles := if wide then 2 else 1 } fun e s =>
    .done (e.write s f.d.toNat fun m =>
      let v := if wide then (s.pair m f.a.toNat).toNat else (s.reg m f.a.toNat).toNat
      BitVec.ofNat 32 (roundTo (Format.ofType (dstType f)) (Rounding.ofCode f.rm.toNat) (f.ovf == 1) (Real.ofInt (intRead f.ty.toNat v))))

/-- R102: the integer that F2I gives. -/
def floatToInt (f : X3) (a : Word) : Int :=
  let F := Format.ofType f.ty.toNat
  realToInt (Rounding.ofCode f.rm.toNat) (dstType f) (F.read (f.ftz == 1) (a.toNat % 2 ^ F.bits))

/-- R102: F2I. -/
def opF2i (len : Nat) (f : X3) (s : State) : State :=
  if wideInt (dstType f) then
    s.issue { shapeX3 len f [r2 f.d, r1 f.a] with cycles := 2 } fun e s =>
      .done (e.writePair s f.d.toNat fun m => BitVec.ofInt 64 (floatToInt f (s.reg m f.a.toNat)))
  else s.op1 len f fun a => BitVec.ofInt 32 (floatToInt f a)

/-- R124. -/
def opF2f (len : Nat) (f : X3) (s : State) : State :=
  s.op1 len f fun a => BitVec.ofNat 32 (convert f.ty.toNat (dstType f) (x3Modes f) (a.toNat % 2 ^ (if f.ty = 15#4 then 8 else (Format.ofType f.ty.toNat).bits)))

/-- R68: an integer type. -/
def isIntType (ty : Nat) : Bool := [0, 1, 3, 4, 7, 8, 9, 10].contains ty

/-- R103: one element narrowed, as a number of the destination's width. A NaN of the floating-point rows becomes the canonical one:
log entry 115 reads R43 beside R103. -/
def narrow (f : X3) (x : Nat) : Nat :=
  let src := f.ty.toNat
  let dst := dstType f
  if isIntType src then
    let v := intRead src x
    let w := if f.ovf = 1#2 then (let (lo, hi) := intRange dst; clampInt v lo hi) else v
    (w % 2 ^ intWidth dst).toNat
  else convert src dst (x3Modes f) x

/-- Width in bits of a type. -/
def typeBits (ty : Nat) : Nat := if isIntType ty then intWidth ty else (Format.ofType ty).bits

/-- R39: element i of width w of a number. -/
def element (w i v : Nat) : Nat := v / 2 ^ (w * i) % 2 ^ w

/-- R103: the elements of a then b, each narrowed. -/
def packWords (f : X3) (a b : Word) : Word :=
  let w := typeBits f.ty.toNat
  let n := 32 / w
  BitVec.ofNat 32 (packNat (w / 2) (((List.range n).map fun i => narrow f (element w i a.toNat)) ++
    ((List.range n).map fun i => narrow f (element w i b.toNat))))

def opPack (len : Nat) (f : X3) (s : State) : State := s.op2 len f (packWords f)

/-- R104: one element widened, as a number of the destination's width. A NaN of the floating-point rows becomes the canonical one:
log entry 115 reads R43 beside R104. -/
def widenElement (f : X3) (x : Nat) : Nat :=
  if isIntType f.ty.toNat then (intRead f.ty.toNat x % 2 ^ intWidth (dstType f)).toNat
  else convert f.ty.toNat (dstType f) (x3Modes f) x

/-- R104: the destination registers as one number, and how many there are. -/
def unpackWord (f : X3) (a : Word) : Nat :=
  let w := typeBits f.ty.toNat
  packNat (typeBits (dstType f)) ((List.range (32 / w)).map fun i => widenElement f (element w i a.toNat))

def unpackRegs (f : X3) : Nat := if f.ty = 13#4 then 4 else 2

def opUnpack (len : Nat) (f : X3) (s : State) : State :=
  s.issue (shapeX3 len f [(f.d.toNat, unpackRegs f), r1 f.a]) fun e s =>
    .done (e.exec.foldl (fun t m => t.setRegs m f.d.toNat (unpackWord f (s.reg m f.a.toNat)) (unpackRegs f)) s)

/-! ### CVTQ (R125) -/

/-- R125: elements of a block. -/
def blockLength (f : X3) : Nat := if f.scope.getLsbD 4 then 16 else 32

/-- Registers the source and the elements take. -/
def cvtqSource (f : X3) : Nat := if f.ty = 2#4 then blockLength f else blockLength f / 2
def cvtqDest (f : X3) : Nat := if dstType f = 13 then blockLength f / 8 else blockLength f / 4

/-- n registers from r, one by one. -/
def regRange (r n : Nat) : List (Nat × Nat) := (List.range n).map fun i => (r + i, 1)

/-- R125: exponent of the largest finite value. -/
def elementMax (ty : Nat) : Int := match ty with | 13 => 2 | 11 => 8 | _ => 15

/-- R125: the scale code and the element codes of a block. -/
def quantise (f : X3) (xs : List Nat) : Nat × List Nat :=
  let F := Format.ofType f.ty.toNat
  let E := Format.ofType (dstType f)
  let vs := xs.map fun x => F.read (f.ftz == 1) x
  if vs.any fun v => match v with | .num _ => false | _ => true then (0xFF, xs.map fun _ => 0)
  else
    let amax := vs.foldl (fun (b : Option Int) v => match v with
      | .num x => if x.man = 0 then b else match b with | some y => some (max y x.log2) | none => some x.log2
      | _ => b) none
    let k := match amax with | none => 0 | some l => clampInt (l - elementMax (dstType f)) (-127) 127
    ((k + 127).toNat, vs.map fun v => match v with
      | .num x => roundTo E (Rounding.ofCode f.rm.toNat) true (.num { x with exp := x.exp - k })
      | _ => 0)

def opCvtq (f : X3) (s : State) : State :=
  let n := blockLength f
  let w := typeBits f.ty.toNat
  let src := cvtqSource f
  let dst := cvtqDest f
  let c := f.c.toNat
  let apart := decide (c < f.d.toNat) || decide (f.d.toNat + dst ≤ c)
  let sh := shapeX3 8 f (regRange f.a.toNat src ++ regRange f.d.toNat dst ++ [r1 f.c])
  s.issue { sh with cycles := 4, fits := f.a.toNat % 4 == 0 && f.d.toNat % 4 == 0 && apart } fun e s =>
    .done (e.exec.foldl (fun t m =>
      let v := s.regs m f.a.toNat src
      let (scale, codes) := quantise f ((List.range n).map fun i => element w i v)
      (t.setRegs m f.d.toNat (packNat (typeBits (dstType f)) codes) dst).setReg m c (BitVec.ofNat 32 scale)) s)

/-! ### Meanings -/

/-- I2F, R102. -/
def execI2f (m : Bool) (a : BitVec 7) (d : BitVec 7) (s : State) : Out :=
  .next (opI2f 4 { s.form32 0 a d with ty := pick m 0 1, scope := 2 } s)

/-- I2F_W, R102. -/
def execI2fW (f : X3) (s : State) : Out :=
  .next (opI2f 8 f s)

/-- F2I, R102. -/
def execF2i (m : Bool) (a : BitVec 7) (d : BitVec 7) (s : State) : Out :=
  .next (opF2i 4 { s.form32 0 a d with ty := 2, scope := scopeBit m } s)

/-- F2I_W, R102. -/
def execF2iW (f : X3) (s : State) : Out :=
  .next (opF2i 8 f s)

/-- F2F, R124. -/
def execF2f (m : Bool) (a : BitVec 7) (d : BitVec 7) (s : State) : Out :=
  .next (opF2f 4 { s.form32 0 a d with ty := 2, scope := if m then 5 else 6 } s)

/-- F2F_W, R124. -/
def execF2fW (f : X3) (s : State) : Out :=
  .next (opF2f 8 f s)

/-- PACK, R103. -/
def execPack (m : Bool) (b : BitVec 7) (a : BitVec 7) (d : BitVec 7) (s : State) : Out :=
  .next (opPack 4 { s.form32 b a d with ty := 2, scope := if m then 5 else 6 } s)

/-- PACK_W, R103. -/
def execPackW (f : X3) (s : State) : Out :=
  .next (opPack 8 f s)

/-- UNPACK, R104. -/
def execUnpack (m : Bool) (a : BitVec 7) (d : BitVec 7) (s : State) : Out :=
  .next (opUnpack 4 { s.form32 0 a d with ty := pick m 6 5, scope := 2 } s)

/-- UNPACK_W, R104. -/
def execUnpackW (f : X3) (s : State) : Out :=
  .next (opUnpack 8 f s)

/-- CVTQ, R125. -/
def execCvtq (f : X3) (s : State) : Out :=
  .next (opCvtq f s)

end Sys2Proof.Machine
end

