-- ==== Sys2Proof/Machine/OperandBuffer.lean ====
section
/-! DEFINITION. Operand buffers and reservation records (R159, R169 to R176): how a panel is read, OBRES, OBREL, OBLD, OBSWAP,
and DQCB (R126). -/

namespace Sys2Proof.Machine

open Sys2Proof

/-! ### Records -/

def Warp.record? (w : Warp) (k : Nat) : Option Reservation := Tab.get? w.records k

/-- R170: the fields of a descriptor. -/
def obFirst (d : BitVec 256) : Nat := descField d 8 0
def obLen (d : BitVec 256) : Nat := descField d 18 9
def obShadow (d : BitVec 256) : Nat := descField d 27 19
def obHasShadow (d : BitVec 256) : Bool := descField d 28 28 == 1
def obFormat (d : BitVec 256) : Nat := descField d 35 32
def obBlock (d : BitVec 256) : Nat := if descField d 36 36 = 1 then 16 else 32
def obRole (d : BitVec 256) : Nat := descField d 37 37
def obScaled (d : BitVec 256) : Bool := descField d 42 42 == 1
def obScales (d : BitVec 256) : Nat := descField d 56 48
def obTscale (d : BitVec 256) : Nat := descField d 95 64
def obCodebook (d : BitVec 256) : Nat := descField d 104 96

/-- R68. -/
def fmtQb8 : Nat := 14
def fmtI8 : Nat := 9

/-- R171: columns or rows of a panel, and the chunk size. -/
def obCount (d : BitVec 256) : Nat := if obRole d = 1 then 32 else panelCols d
def chunkSize (fmt : Nat) : Nat := if fmt = fmtQb8 then 8 else 16

/-- R175: the first line of the front range, or of the other one, under a plane bit. -/
def planeFirst (d : BitVec 256) (plane : Bool) : Nat := if plane then obShadow d else obFirst d

/-- The lines from a first one on. -/
def lineRange (first n : Nat) : List Nat := (List.range n).map (first + ·)

/-- Every line of a record's ranges. -/
def obLines (d : BitVec 256) : List Nat :=
  lineRange (obFirst d) (obLen d) ++ (if obHasShadow d then lineRange (obShadow d) (obLen d) else [])

/-- R176: the pairing class of a format, and its K-step length. -/
def pairingClass (fmt : Nat) : Nat := match fmt with | 5 | 6 => 0 | 11 | 12 => 1 | 13 | 14 => 2 | _ => 3
def kappa (fmt : Nat) : Nat := match pairingClass fmt with | 0 => 8 | 2 => 32 | _ => 16

/-- Formats of an operand. -/
def operandFormat (fmt : Nat) : Bool := [5, 6, 9, 11, 12, 13, 14].contains fmt

/-- R170, R172: the rules of a descriptor by itself. -/
def descriptorOk (d : BitVec 256) : Bool :=
  let fmt := obFormat d
  let f := descField d
  f 255 105 == 0 && f 63 57 == 0 && f 47 43 == 0 && f 31 29 == 0 && operandFormat fmt &&
  (fmt == fmtQb8 || obCodebook d == 0) && (obScaled d || obScales d == 0) &&
  (if fmt = 13 ∨ fmt = fmtQb8 then obScaled d else fmt == 11 || fmt == 12 || !obScaled d) &&
  (obRole d == 0 || f 41 38 == 0) && (f 36 36 == 0 || (fmt != fmtQb8 && obScaled d)) &&
  (obHasShadow d || obShadow d == 0) && decide (1 ≤ obLen d) && decide (obLen d ≤ 512) &&
  decide (obFirst d + obLen d ≤ 512) && (!obHasShadow d || decide (obShadow d + obLen d ≤ 512)) &&
  (!obHasShadow d || decide (obFirst d + obLen d ≤ obShadow d ∨ obShadow d + obLen d ≤ obFirst d)) &&
  (!obScaled d || decide (obScales d < obLen d)) && (fmt != fmtQb8 || decide (obCodebook d + 8 ≤ obLen d))

/-- R169: no line of the descriptor lies in a valid range of another warp of the quarter. -/
def State.obFree (s : State) (wid : Nat) (d : BitVec 256) : Bool :=
  match s.warp? wid with
  | none => false
  | some w => s.warps.all fun (i, x) => i == wid || x.place?.isNone || x.quarterOf != w.quarterOf ||
      x.records.all fun (_, r) => (obLines r.desc).all fun l => !(obLines d).contains l

/-! ### Reading a panel (R171) -/

def obKey (q line : Nat) : Nat := q * 512 + line

def State.obLine (s : State) (q line : Nat) : Line := Tab.getD s.mem.opbuf (obKey q line) 0

/-- n bytes, within one line, at a byte offset of a plane. -/
def State.obRead (s : State) (q first off n : Nat) : Nat := lineRead (s.obLine q (first + off / 128)) (off % 128) n

/-- R48: entry e of the codebook table of a plane. -/
def State.obEntry (s : State) (q first : Nat) (d : BitVec 256) (e : Nat) : Nat := s.obRead q first (obCodebook d * 128 + 4 * e) 4

/-- R41, R42, R47: the elements of a chunk. -/
def chunkValues (fmt chunk : Nat) (entry : Nat → Nat) : List Real :=
  if fmt = fmtQb8 then
    (List.range 4).flatMap fun i =>
      let x := element 16 i chunk
      (List.range 8).map fun j => .num (qb8Value x (entry (x / 256)) j)
  else
    let F := Format.ofType fmt
    (List.range (kappa fmt)).map fun k => F.value (element F.bits k chunk)

/-- R178: the elements of an integer chunk. -/
def chunkInts (chunk : Nat) : List Int := (List.range 16).map fun k => intRead fmtI8 (element 8 k chunk)

/-- R45: an element under the scale code of its block. -/
def Real.scaled (v : Real) (code : Nat) : Real :=
  match scaleExp code, v with
  | none, _ => .nan
  | some e, .num x => .num { x with exp := x.exp + e }
  | some _, v => v

/-- R171: the elements of K-step s under the scale codes of their blocks of length L. -/
def scaleBy (fmt L step : Nat) (code : Nat → Nat) (l : List Real) : List Real :=
  (l.zip (List.range l.length)).map fun (v, k) => v.scaled (code ((step * kappa fmt + k) / L))

/-- The bytes of column or row j at K-step s of a panel. -/
def State.panelChunk (s : State) (q first : Nat) (d : BitVec 256) (step j : Nat) : Nat :=
  let z := chunkSize (obFormat d)
  s.obRead q first (step * obCount d * z + j * z) z

/-- R177: the scaled elements of column or row j at K-step s. -/
def State.panelValues (s : State) (q first : Nat) (d : BitVec 256) (step j : Nat) : List Real :=
  let fmt := obFormat d
  let l := chunkValues fmt (s.panelChunk q first d step j) (s.obEntry q first d)
  if obScaled d then
    scaleBy fmt (obBlock d) step (fun b => s.obRead q first (obScales d * 128 + b * obCount d + j) 1) l
  else l

/-- R179: blocks of scales in that many K-steps. -/
def blocksOf (fmt L ks : Nat) : Nat := (ks * kappa fmt + L - 1) / L

/-- The lines of a plane that so many K-steps of a panel, its scales and its codebook take up, from the plane's first line. -/
def panelLines (d : BitVec 256) (ks : Nat) : List Nat :=
  let fmt := obFormat d
  lineRange 0 ((ks * obCount d * chunkSize fmt + 127) / 128) ++
  (if obScaled d then lineRange (obScales d) ((blocksOf fmt (obBlock d) ks * obCount d + 127) / 128) else []) ++
  (if fmt = fmtQb8 then lineRange (obCodebook d) 8 else [])

/-- R179: the K-steps and their scale bytes lie within the plane. -/
def panelFits (d : BitVec 256) (ks : Nat) : Bool := (panelLines d ks).all fun l => decide (l < obLen d)

/-! ### What is outstanding on a record -/

/-- The records a product reads. -/
def Product.records (p : Product) : List Nat :=
  let c := p.enc.extractLsb' 40 8
  (p.groups.map fun g => g.2.2) ++ (if c.getLsbD 7 then [c.toNat % 8] else [])

def Product.plane (p : Product) (k : Nat) : Bool := p.planes.getLsbD k

/-- The physical lines that a product of a warp reads. -/
def Product.reads (p : Product) (w : Warp) : List Nat :=
  p.records.flatMap fun k =>
    match w.record? k with
    | none => []
    | some r =>
      let first := planeFirst r.desc (p.plane k)
      if p.kind = .mmat then lineRange first (obLen r.desc) else (panelLines r.desc p.steps).map (first + ·)

/-- The products of a warp in its quarter's fabric queue. -/
def State.productsOf (s : State) (wid : Nat) : List Product :=
  match s.warp? wid with
  | none => []
  | some w => (s.quarter w.quarterOf).fabric.filter (·.wid == wid)

/-- The OBLDs of a warp: the number of the operation, first line, number of lines and record. -/
def State.obldsOf (s : State) (wid : Nat) : List (Nat × Nat × Nat × Nat) :=
  (s.opsOf wid).filterMap fun (i, o) => match o.kind, o.dests with
    | .obld _ first k _, d :: _ => some (i, first, d.size, k)
    | _, _ => none

/-- R175: an OBLD of the warp has yet to write one of these lines. -/
def State.obldWrites (s : State) (wid : Nat) (lines : List Nat) : Bool :=
  (s.obldsOf wid).any fun (_, first, n, _) => lines.any fun l => decide (first ≤ l) && decide (l < first + n)

/-- R173: a matrix instruction or OBLD of the warp uses a record. Suspended instructions count (log entry 14). -/
def State.recordBusy (s : State) (wid k : Nat) : Bool :=
  (s.productsOf wid).any (fun p => p.records.contains k) ||
  (s.warp? wid).any (fun w => w.suspended.any fun (_, p) => p.records.contains k) ||
  (s.obldsOf wid).any fun (_, _, _, r) => r == k

/-! ### Warp by warp (R165) -/

/-- R165: the warps with an executing thread, in ascending slot. -/
def Env.bySlot (e : Env) (s : State) : List Nat :=
  let slotOf (w : Nat) : Nat := match s.warp? w with | some x => x.slot | none => 0
  (warpsOf e.exec).foldl (fun acc w => acc.takeWhile (fun x => decide (slotOf x ≤ slotOf w)) ++ w :: acc.dropWhile (fun x => decide (slotOf x ≤ slotOf w))) []

/-- The executing threads of a warp. -/
def Env.execOf (e : Env) (wid : Nat) : List Member := e.exec.filter (·.wid == wid)

/-- R165, R369: the threads that record a stop of a warp's attempt: a fault met at the source address is that of the thread whose
operand it is; a fault of the record is that of every executing thread. -/
def Env.blamed (e : Env) (wid : Nat) (m : Member) (x : Stop) : List Member :=
  match x with
  | .fault c _ => if c = Code.obState then e.execOf wid else [m]
  | .watch _ _ => [m]
  | _ => e.execOf wid

/-- One attempt for each warp in ascending slot, each on the state the one before left. -/
def Env.forWarps {α : Type} (e : Env) (s : State) (f : Nat → Member → State → Except Stop α × State) :
    List (Nat × α) × List (Member × Stop) × State :=
  (e.bySlot s).foldl (fun (r, l, t) wid =>
    let m := (e.uniform wid).getD ⟨wid, 0⟩
    match f wid m t with
    | (.ok x, u) => (r ++ [(wid, x)], l, u)
    | (.error x, u) => (r, l ++ (e.blamed wid m x).map (·, x), u)) ([], [], s)

/-- A fault that carries no address. -/
def plainFault (c : BitVec 16) : Stop := .fault c 0

/-! ### OBRES, OBREL, OBSWAP (R172, R173, R175) -/

/-- R172: one warp's record is made, on a copy of the state that stands only when every check has passed. Of two warps of a merged group
whose new records overlap, the one in the higher slot meets the other's new record and raises OBSTATE; records that the instruction
replaces count too (DESIGN CHOICE, log entry 103). -/
def State.obresSpot (s : State) (f : XE) (wid : Nat) (m : Member) (t : State) : Except Stop Unit × State :=
  match t.readObject m (t.pair m f.a.toNat).toNat 32 32 with
  | (.error x, u) => (.error x, u)
  | (.ok v, u) =>
    let d := BitVec.ofNat 256 v
    if descriptorOk d && s.obFree wid d && u.obFree wid d then
      (.ok (), u.modWarp wid fun w => { w with records := Tab.put w.records (f.var8.toNat % 8) ⟨d, false⟩ })
    else (.error (plainFault Code.obState), u)

def opObres (f : XE) (s : State) : State :=
  s.issue (shapeXE f [r2 f.a]) fun e s =>
    let (_, stops, t) := e.forWarps s (s.obresSpot f)
    if e.exec.any fun m => s.recordBusy m.wid (f.var8.toNat % 8) && ((s.warp? m.wid).bind (·.record? (f.var8.toNat % 8))).isSome then .hold s
    else match settle s { t with warps := s.warps } stops with
    | some x => x
    | none => .done t

def opObrel (f : X3) (s : State) : State :=
  s.issue (shapeX3 8 f []) fun e s =>
    let k := f.b.toNat % 8
    if e.exec.any fun m => s.recordBusy m.wid k then .hold s
    else .done ((warpsOf e.exec).foldl (fun t w => t.modWarp w fun x => { x with records := Tab.del x.records k }) s)

def opObswap (f : X3) (s : State) : State :=
  s.issue (shapeX3 8 f []) fun e s =>
    let k := f.b.toNat % 8
    let bad := e.exec.filter fun m => match (s.warp? m.wid).bind (·.record? k) with | some r => !obHasShadow r.desc | none => true
    if !bad.isEmpty then .fault (allCauses bad Code.obState 0) 0
    else .done ((warpsOf e.exec).foldl (fun t w => t.modWarp w fun x =>
      { x with records := Tab.modify x.records k fun r => { r with plane := !r.plane } }) s)

/-! ### OBLD (R174) -/

/-- A checked OBLD of one warp: where it reads and which lines it writes. -/
structure Fetching where
  m : Member
  va : Nat
  first : Nat
  sources : List Spot
  deriving DecidableEq, Repr

/-- The checks of the source lines, in ascending order. -/
def Env.sourceLines (e : Env) (m : Member) (va : Nat) (s : State) : Nat → Except Stop (List Spot) × State
  | 0 => (.ok [], s)
  | n + 1 =>
    match s.checkAccess e m false va 128 true false with
    | (.error x, t) => (.error x, t)
    | (.ok a, t) =>
      match t.lineStop a false va, t.dataStop (s.ctxOf m.wid) a va with
      | some x, _ => (.error x, t)
      | none, some x => (.error x, t)
      | none, none =>
        match e.sourceLines m (va + 128) t n with
        | (.ok l, u) => (.ok (⟨m, va, a⟩ :: l), u)
        | r => r

/-- R174: the checks of one warp's OBLD. -/
def Env.obldSpot (e : Env) (f : XM) (wid : Nat) (m : Member) (s : State) : Except Stop Fetching × State :=
  let va := (s.pair m f.a.toNat).toNat
  let n := (s.reg m f.b.toNat).toNat
  let off := (s.reg m f.c.toNat).toNat
  let sh := f.var.getLsbD 1
  match (s.warp? wid).bind (·.record? (f.d.toNat % 8)) with
  | none => (.error (plainFault Code.obState), s)
  | some r =>
    if (sh && !obHasShadow r.desc) || n % 128 != 0 || n == 0 || decide (65536 < n) || off % 128 != 0 || decide (obLen r.desc * 128 < off + n) then
      (.error (plainFault Code.obState), s)
    else
      match e.sourceLines m va s (n / 128) with
      | (.error x, t) => (.error x, t)
      | (.ok l, t) => (.ok ⟨m, va, planeFirst r.desc (r.plane != sh) + off / 128, l⟩, t)

/-- R174: one warp's OBLD is outstanding. Its destination stands for the warp's lowest executing thread and names no register. -/
def State.beginObld (s : State) (e : Env) (f : XM) (x : Fetching) : State :=
  let wid := x.m.wid
  let consume := f.var.getLsbD 0
  let id := s.fresh
  let indexed := x.sources.zip (List.range x.sources.length)
  let image := indexed.foldl (fun (t : Tab Line) (p, i) =>
    if p.t.scratch then (let l := s.scratchLine p.t.line; if l.present then Tab.put t i l.data else t)
    else match Tab.get? s.mem.counted p.t.line with | some c => Tab.put t i c.data | none => t) []
  let absent := (x.sources.filter fun p => p.t.scratch && !(s.scratchLine p.t.line).present).map (·.t.line)
  let requests := indexed.filterMap fun (p, i) =>
    if p.t.scratch || (Tab.get? s.mem.counted p.t.line).isSome then none
    else some (⟨id, p.t.line, i, if f.var.getLsbD 2 then .fresh else .stale, s.ctxOf wid, wid, e.core, consume, BitVec.allOnes 128, .l1, none, 0, false, p.va, none⟩ : LineReq)
  let s1 := if consume then
      (globalLinesOf x.sources).foldl State.consumeGlobal ((scratchLinesOf x.sources).foldl (fun t k => if absent.contains k then t else t.consumeScratch k) s)
    else s
  let reqs := numbered (id + 1) requests
  let src := match x.sources with | p :: _ => p.t.addr | [] => 0
  let dest : Dest := ⟨wid, x.m.lane, 1000, x.sources.length, false, BitVec.ofNat 64 x.va, src, none⟩
  let op : Op := ⟨.obld e.q x.first (f.d.toNat % 8) consume, e.core, BitVec.ofNat 56 e.pc, countsOf [wid] (e.flag f.fs), [dest], absent, image⟩
  let mem := { s1.mem with ops := Tab.put s1.mem.ops id op, reqs := reqs.foldl (fun t q => Tab.put t q.1 q.2) s1.mem.reqs }
  ({ s1 with mem := mem, fresh := id + 1 + reqs.length } : State).countUp [wid] (e.flag f.fs)

/-- R165, R174: one warp's OBLD, checked on the state that the OBLDs of the warps before it leave: a line that one of them consumed for
the last time is dropped for the next (R213). -/
def Env.obldTurn (e : Env) (f : XM) (wid : Nat) (m : Member) (s : State) : Except Stop Fetching × State :=
  match e.obldSpot f wid m s with
  | (.ok x, t) => (.ok x, t.beginObld e f x)
  | r => r

def opObld (f : XM) (s : State) : State :=
  s.issue { shapeXM f [r2 f.a, r1 f.b, r1 f.c] with flag := some f.fs } fun e s =>
    let (xs, stops, t) := e.forWarps s (e.obldTurn f)
    match settle s (s.heldUp .busy t) stops with
    | some x => x
    | none =>
      let blocked := xs.any fun (wid, x) =>
        (s.warp? wid).any fun w => (s.productsOf wid).any fun p =>
          (p.reads w).any fun l => decide (x.first ≤ l) && decide (l < x.first + x.sources.length)
      if blocked then .hold (s.heldUp .busy t) else .done t

/-- The line of an OBLD at a position, once it has arrived. -/
def State.obldLine (s : State) (op : Nat) (o : Op) (i : Nat) : Option Line :=
  match Tab.get? o.image i with
  | some l => some l
  | none => (s.mem.reqs.find? fun (_, q) => q.op == op && q.index == i && decide (q.stage = .served)).map (·.2.data)

/-- OBLD_COMPLETE, R174: every source line has arrived, and no earlier OBLD of the warp has yet to write these lines. -/
def execObldComplete (op : Nat) (s : State) : Out :=
  match Tab.get? s.mem.ops op with
  | none => .next s
  | some o =>
    match o.kind, o.dests with
    | .obld q first _ _, d :: _ =>
      let lines := (List.range d.size).filterMap fun i => (s.obldLine op o i).map fun l => (i, l)
      let earlier := (s.obldsOf d.wid).any fun (i, b, n, _) => decide (i < op) && decide (b < first + d.size) && decide (first < b + n)
      if lines.length < d.size || earlier then .next s
      else
        let opbuf := lines.foldl (fun t (i, l) => Tab.set 0 t (obKey q (first + i)) l) s.mem.opbuf
        let s1 : State := { s with mem := { s.mem with opbuf := opbuf } }
        .next (((s1.countDown o.flags).modOp op fun o => { o with dests := [] }).sweepOp op)
    | _, _ => .next s

/-! ### DQCB (R126) -/

/-- R126: the eight weights of an index under a scale code, as 16-bit elements. -/
def dqcbWeights (f : X3) (entry : Nat → Nat) (a b : Word) : Nat :=
  let index := element 16 (if f.scope.getLsbD 4 then 1 else 0) a.toNat
  let F := Format.ofType (dstType f)
  let m := x3Modes f
  packNat 16 ((List.range 8).map fun j =>
    roundFlush F m.rm m.sat m.ftz ((Real.num (qb8Value index (entry (index / 256)) j)).scaled (b.toNat % 256)))

def opDqcb (f : X3) (s : State) : State :=
  s.issue (shapeX3 8 f [r4 f.d, r1 f.a, r1 f.b]) fun e s =>
    let k := f.c.toNat % 8
    let book (wid : Nat) : Option (BitVec 256 × Nat) :=
      match (s.warp? wid).bind (·.record? k) with
      | some r => if obFormat r.desc = fmtQb8 then some (r.desc, planeFirst r.desc r.plane) else none
      | none => none
    let bad := e.exec.filter fun m => (book m.wid).isNone
    if !bad.isEmpty then .fault (allCauses bad Code.obState 0) 0
    else if (warpsOf e.exec).any fun w => match book w with
        | some (d, first) => s.obldWrites w (lineRange (first + obCodebook d) 8)
        | none => false then .hold s
    else .done (e.exec.foldl (fun t m =>
      match book m.wid with
      | some (d, first) => t.setRegs m f.d.toNat (dqcbWeights f (s.obEntry e.q first d) (s.reg m f.a.toNat) (s.reg m f.b.toNat)) 4
      | none => t) s)

/-! ### Meanings -/

/-- OBRES, R172. -/
def execObres (f : XE) (s : State) : Out := .next (opObres f s)

/-- OBREL, R173. -/
def execObrel (f : X3) (s : State) : Out := .next (opObrel f s)

/-- OBLD, R174. -/
def execObld (f : XM) (s : State) : Out := .next (opObld f s)

/-- OBSWAP, R175. -/
def execObswap (f : X3) (s : State) : Out := .next (opObswap f s)

/-- DQCB, R126. -/
def execDqcb (f : X3) (s : State) : Out := .next (opDqcb f s)

end Sys2Proof.Machine
end

