-- ==== Sys2Proof/Machine/Traps.lean ====
section
/-! DEFINITION. TRAP and BKPT (R334, R335), service calls (R327, R328, R374, R375), TRET and PREACK (R322, R324), and the saving and
restoring of contexts by SAVEX and RESTX (R318, R336). -/

namespace Sys2Proof.Machine

open Sys2Proof

/-! ### TRAP and BKPT -/

/-- R334, R335: a trap that the instruction asks for, at itself. -/
def opAsk (sh : Shape) (code : BitVec 16) (n : Nat) (s : State) : State :=
  s.issue sh fun e _ => .fault (allCauses e.exec code 0) (BitVec.ofNat 64 n)

def opTrap (len : Nat) (f : XS) (s : State) : State :=
  opAsk { shapeXS len f [] with place := .ending } Code.userTrap (f.simm.toNat % 256) s

def opBkpt (f : XS) (s : State) : State := opAsk (shapeXS 8 f []) Code.break_ (f.simm.toNat % 256) s

/-! ### Service calls -/

/-- R374: the ring has room for n entries: no undelivered entry occupies a slot that they would take. -/
def Ctx.serviceRoom (c : Ctx) (n : Nat) : Bool :=
  (List.range n).all fun i => c.svc.all fun (k, _) => k % c.svccnt.toNat != (c.svcSeq.toNat + i) % 2 ^ 32 % c.svccnt.toNat

/-- R374: the address of an entry. -/
def Ctx.serviceAt (c : Ctx) (seq : Nat) : Nat := c.svcbase.toNat + 128 * (seq % c.svccnt.toNat)

/-- R327: an entry as the device writes it. -/
def serviceEntry (arg seq code lane n queue ctx slot : Nat) : Nat :=
  place 512 arg + place 288 seq + place 280 code + place 275 lane + place 269 n + place 248 queue + place 236 ctx + place 220 slot

/-- R397: the index word and the message that announce a group's entries. -/
def State.announceService (s : State) (ctx : Nat) (c : Ctx) (next : Nat) : Option State × State :=
  match s.ctxWrite ctx (c.svcbase.toNat + 128 * c.svccnt.toNat) 4 next with
  | (some t, u) => (some { t with host := { t.host with msix := (3 + ctx % 2045) :: t.host.msix } }, u)
  | r => r

/-- R327: the argument block of each executing thread. -/
def Env.serviceArgs (e : Env) (s : State) (a : Nat) : List (Member × Nat) × List (Member × Stop) × State :=
  e.exec.foldl (fun (r, l, t) m => match t.readObject m (t.pair m a).toNat 64 64 with
    | (.ok v, u) => (r ++ [(m, v)], l, u)
    | (.error x, u) => (r, l ++ [(m, x)], u)) ([], [], s)

/-- R74, R327: the executing threads wait in STATE 5; the others go on at their next run. -/
def State.enterService (s : State) (e : Env) (seqOf : Member → Option Nat) (d : Nat) : State :=
  let t := e.members.foldl (fun t m => match seqOf m with
    | some k => t.modThread m fun u => { u with status := .service (BitVec.ofNat 32 k) d }
    | none => t.modThread m fun u => u.complete e.len none s.now) s
  let t := (warpsOf e.members).foldl (fun t w => t.modWarp w fun x => x.watched e.pc) t
  (t.endSample e.q).freeSlot e.q

def opTrapSvc (len : Nat) (f : XS) (s : State) : State :=
  s.issue { shapeXS len f [r2 f.a, r4 f.d] with place := .ending } fun e s =>
    let ctx := s.ctxOfGroup e.group
    let (args, stops, t) := e.serviceArgs s f.a.toNat
    match settle s t stops, s.ctx? ctx with
    | some x, _ => x
    | none, none => .done s
    | none, some c =>
      let n := e.exec.length
      if !c.serviceRoom n then .wait (.retry (.serviceRoom ctx n)) true t
      else
        let first := c.svcSeq.toNat
        let seqs := (List.range n).map fun i => (first + i) % 2 ^ 32
        let tasks := seqs.zip args
        let wrote := readyAll (fun (u : State) (k, m, arg) =>
          let w := u.warp? m.wid
          let queue := ((w.bind u.launchOfWarp).map (·.queue)).getD 0
          let slot := (w.map (·.saveSlot)).getD 0
          let v := serviceEntry arg k (f.simm.toNat % 256) m.lane n queue ctx slot
          u.ctxWrite ctx (c.serviceAt k) 128 v) t tasks
        match wrote with
        | (none, u) => .hold u
        | (some u, _) =>
          match u.announceService ctx c ((first + n) % 2 ^ 32) with
          | (none, v) => .hold v
          | (some v, _) =>
            let v1 := v.modCtx ctx fun c => { c with
              svcSeq := c.svcSeq + BitVec.ofNat 32 n
              svc := tasks.foldl (fun l (k, m, _) => Tab.put l k ⟨m.wid, m.lane, f.d.toNat, e.len, BitVec.ofNat 32 first, n, false, 0, 0⟩) c.svc }
            let seqOf : Member → Option Nat := fun m => (tasks.find? fun x => x.2.1 == m).map (·.1)
            .left (v1.enterService e seqOf f.d.toNat)

/-- R328: every entry of a group not yet delivered is DONE. -/
def Ctx.groupDone (c : Ctx) (first : BitVec 32) : Bool := c.svc.all fun (_, e) => e.first != first || e.done

/-- R328, R375: a requester that waits on a core takes its reply and goes on after its TRAP.SVC. -/
def State.deliverTo (s : State) (ctx seq : Nat) (e : ServiceEntry) : State :=
  let m : Member := ⟨e.wid, e.lane⟩
  let gone := s.modCtx ctx fun c => { c with svc := Tab.del c.svc seq }
  match s.warp? e.wid, s.thread? m with
  | some w, some t =>
    if t.status = .service (BitVec.ofNat 32 seq) e.d then
      if w.resident then
        let s1 := (gone.setRegs m e.d e.reply.toNat 4).acquireAt e.wid e.time
        s1.modThread m fun u => if u.rhdr = 0 then { u with status := .running } else ({ u with status := .running } : Thread).complete e.len none s.now
      else s
    else if w.level = 0 then gone
    else s
  | _, _ => gone

/-- R328: delivery of every complete group, to each requester that can take it now. A requester that has been moved out of its
wait, or is no more, takes nothing. -/
def State.deliverServices (s : State) (ctx : Nat) : State :=
  match s.ctx? ctx with
  | none => s
  | some c =>
    if c.ended then s
    else (c.svc.filter fun (_, e) => c.groupDone e.first).foldl (fun t (k, e) => t.deliverTo ctx k e) s

/-- R328: the device reads the DONE of an entry a doorbell names, as a fresh load at system scope reads it; `false` while the line
has still to come. -/
def State.answerDoorbell (s : State) (ctx : Nat) (v : BitVec 32) : Bool × State :=
  match s.ctx? ctx with
  | none => (true, s)
  | some c =>
    if c.ended then (true, s)
    else match Tab.get? c.svc v.toNat with
    | none => (true, s.deliverServices ctx)
    | some e =>
      let va := c.serviceAt v.toNat
      match s.deviceAddress ctx va .read with
      | .error t => (false, t)
      | .ok (pa, t) =>
        match t.deviceRead ctx pa 128 with
        | (none, u) => (false, u)
        | (some w, u) =>
          if field w 320 320 = 0 then (true, u)
          else
            let x : ServiceEntry := { e with done := true, reply := BitVec.ofNat 128 (field w 511 384), time := (u.home (pa / 128)).wts }
            (true, (u.modCtx ctx fun c => { c with svc := Tab.put c.svc v.toNat x }).deliverServices ctx)

/-- R328: every doorbell of a context whose line has come is answered. -/
def State.answerRung (s : State) (ctx : Nat) (l : List (BitVec 32)) : State :=
  l.foldl (fun t v =>
    match t.answerDoorbell ctx v with
    | (true, u) => u.modCtx ctx fun c => { c with svcRung := c.svcRung.erase v }
    | (false, u) => u) s

/-- R328: the doorbells of all contexts, after a line has come. -/
def State.answerDoorbells (s : State) : State := s.ctxs.foldl (fun t (i, c) => t.answerRung i c.svcRung) s

/-- SERVICE_DOORBELL, R328: the host names an entry. -/
def execServiceDoorbell (ctx : Nat) (v : BitVec 32) (s : State) : Out :=
  .next (s.modCtx ctx fun c => { c with svcRung := c.svcRung ++ [v] }).answerDoorbells

/-! ### Contexts in a save slot (R318) -/

/-- R318: the save header. -/
def saveHeader (w : Warp) (mask : Nat) (ob acked forced : Bool) : Nat :=
  mask + place 16 (if ob then 1 else 0) + place 17 (if forced then 1 else 0) + place 18 (if acked then 1 else 0) +
  place 32 (if ob then (w.records.foldl (fun (b : BitVec 8) (k, _) => b ||| BitVec.twoPow 8 k) 0).toNat else 0) +
  place 56 (w.alloc / 16 - 1)

/-- R318: a reservation record as it is saved. -/
def recordImage (w : Warp) (k : Nat) : Nat :=
  match Tab.get? w.records k with
  | some r => r.desc.toNat % 2 ^ 254 + place 254 (if r.plane then 1 else 0) + place 255 1
  | none => 0

/-- The registers of a mask. -/
def maskRegs (mask : Nat) : List Nat := (List.range 256).filter fun n => mask.testBit (n / 16)

/-- The lines of a warp's valid records (R192), each once. -/
def Warp.bufferLines (w : Warp) : List Nat := distinct (w.records.flatMap fun (_, r) => obLines r.desc)

/-- R318: header, and the records under .ob. -/
def headLines (w : Warp) (base mask : Nat) (ob acked forced : Bool) : List (Nat × Line × LineMask) :=
  let v := saveHeader w mask ob acked forced + (if ob then place 512 (packNat 256 ((List.range 8).map (recordImage w))) else 0)
  if ob then (List.range 3).map fun i => (base + 128 * i, BitVec.ofNat 1024 (v / 2 ^ (1024 * i)), if i = 2 then byteMask 0 64 else BitVec.allOnes 128)
  else [(base, BitVec.ofNat 1024 v, byteMask 0 64)]

/-- R318, R336: the registers of a mask, one line for each, of all 32 lanes. What the register of a lane that never held a thread
holds is free (log entry 70). -/
def regLines (w : Warp) (base mask : Nat) (free : Nat → Nat) : List (Nat × Line × LineMask) :=
  (maskRegs mask).map fun n =>
    (base + 0x200 + 128 * n,
     BitVec.ofNat 1024 (packNat 32 ((List.range 32).map fun l => match Tab.get? w.threads l with
       | some t => (t.reg n).toNat
       | none => free (32 * n + l))), BitVec.allOnes 128)

/-- R192, R318: the operand-buffer lines of the valid records. -/
def State.bufferImage (s : State) (w : Warp) (base : Nat) : List (Nat × Line × LineMask) :=
  w.bufferLines.map fun i => (base + 0x8200 + 128 * i, s.obLine w.quarterOf i, BitVec.allOnes 128)

/-- Registers read back into every live lane. -/
def Warp.putRegs (w : Warp) (n v : Nat) : Warp :=
  { w with threads := w.threads.map fun (l, t) => (l, if t.live then t.setReg n (BitVec.ofNat 32 (field v (32 * l + 31) (32 * l))) else t) }

/-- The registers of a mask, as they stand in a block. -/
def State.loadRegs (s : State) (wid base mask : Nat) : Except Stop (List (Nat × Nat)) × State :=
  match s.loadLines wid ((maskRegs mask).map fun n => base + 0x200 + 128 * n) with
  | (.ok l, t) => (.ok ((maskRegs mask).zip l), t)
  | (.error x, t) => (.error x, t)

/-- R318: the records of a block, those marked VALID. -/
def imageRecords (v : Nat) : Tab Reservation :=
  (List.range 8).foldl (fun t k =>
    let x := v / 2 ^ (512 + 256 * k) % 2 ^ 256
    if x.testBit 255 then Tab.put t k ⟨BitVec.ofNat 256 (x % 2 ^ 254), x.testBit 254⟩ else t) []

/-- R192: no line of a warp's records lies in a valid record of another warp on the quarter. -/
def State.buffersFree (s : State) (wid q : Nat) (records : Tab Reservation) : Bool :=
  s.warps.all fun (i, x) => i == wid || x.place?.isNone || x.quarterOf != q ||
    x.records.all fun (_, r) => (obLines r.desc).all fun l => records.all fun (_, y) => !(obLines y.desc).contains l

/-- Records and the lines of a block put back (R192). -/
def State.putBuffers (s : State) (wid q : Nat) (records : Tab Reservation) (lines : List (Nat × Nat)) : State :=
  let s1 := s.modWarp wid fun w => { w with records := records }
  { s1 with mem := { s1.mem with opbuf := lines.foldl (fun t (i, v) => Tab.set 0 t (obKey q i) (BitVec.ofNat 1024 v)) s1.mem.opbuf } }

/-- The header, records and lines of a block. -/
def State.loadBuffers (s : State) (wid base : Nat) : Except Stop (Tab Reservation × List (Nat × Nat)) × State :=
  match s.loadLines wid ((List.range 3).map fun i => base + 128 * i) with
  | (.error x, t) => (.error x, t)
  | (.ok hs, t) =>
    let records := imageRecords (packNat 1024 hs)
    let lines := distinct (records.flatMap fun (_, r) => obLines r.desc)
    match t.loadLines wid (lines.map fun i => base + 0x8200 + 128 * i) with
    | (.ok l, u) => (.ok (records, lines.zip l), u)
    | (.error x, u) => (.error x, u)

/-! ### SAVEX and RESTX (R336) -/

def saveMask (f : XS) : Nat := f.simm.toNat
def saveOb (f : XS) : Bool := f.c.getLsbD 0

/-- R318, R336: what either instruction accesses of a block: the header, with the records under .ob, the registers of the mask, and
operand-buffer lines. -/
def saveSpans (f : XS) (base : Nat) (lines : List Nat) : List (Nat × Nat) :=
  (base, if saveOb f then 320 else 64) :: ((maskRegs (saveMask f)).map fun n => (base + 0x200 + 128 * n, 128)) ++
    lines.map fun i => (base + 0x8200 + 128 * i, 128)

/-- The operand-buffer lines that either instruction accesses for a warp: of its records, or of those in the block. -/
def State.saveBuffers (s : State) (f : XS) (writes : Bool) (wid base : Nat) : List Nat × State :=
  if !saveOb f then ([], s)
  else if writes then (((s.warp? wid).map Warp.bufferLines).getD [], s)
  else match s.loadLines wid ((List.range 3).map fun i => base + 128 * i) with
    | (.ok hs, t) => (distinct ((imageRecords (packNat 1024 hs)).flatMap fun (_, r) => obLines r.desc), t)
    | (.error _, t) => ([], t)

/-- R220, R336, R352: the watchpoints that the accesses of either instruction for one warp match: the lowest, at the first byte. -/
def Env.saveWatch (e : Env) (s : State) (f : XS) (writes : Bool) (m : Member) (lines : List Nat) : Option Stop :=
  let hits := (saveSpans f (s.pair m f.a.toNat).toNat lines).filterMap fun (a, n) => e.watchStop s m a n (!writes) writes
  hits.foldl (fun b x => match b, x with | some (.watch k a), .watch j _ => some (.watch (min k j) a) | none, y => some y | y, _ => y) none

/-- R352: what the watchpoints make of either instruction, each warp by its lowest executing thread. -/
def Env.saveStops (e : Env) (s : State) (f : XS) (writes : Bool) : List (Member × Stop) × State :=
  (warpsOf e.exec).foldl (fun (l, t) wid =>
    let m := (e.uniform wid).getD ⟨wid, 0⟩
    let (lines, u) := t.saveBuffers f writes wid (t.pair m f.a.toNat).toNat
    match e.saveWatch s f writes m lines with
    | some x => (l ++ (e.exec.filter (·.wid == wid)).map fun k => (k, x), u)
    | none => (l, u)) ([], s)

/-- What either instruction checks as it issues. -/
def opSave (f : XS) (k : WaitKind) (writes : Bool) (s : State) : State :=
  s.issue (shapeXS 8 f [r2 f.a]) fun e s =>
    let bad := e.exec.filter fun m => match s.warp? m.wid with | some w => decide (2 ^ (w.alloc / 16) ≤ saveMask f) | none => false
    let off := e.exec.filter fun m => (e.uniform m.wid).any fun u => (s.pair u f.a.toNat).toNat % 4096 != 0
    if !bad.isEmpty then .fault (allCauses bad Code.illegal (BitVec.ofNat 64 e.pc)) 0
    else if !off.isEmpty then .fault (off.map fun m => (m, ⟨Code.misalign, s.pair ((e.uniform m.wid).getD m) f.a.toNat⟩)) 0
    else match settle s s (e.saveStops s f writes).1 with
    | some x => x
    | none => .wait k false (e.saveStops s f writes).2

/-- R336: no register of the mask has a result pending, and under .ob no OBLD or matrix instruction is outstanding. -/
def State.saveReady (s : State) (wid : Nat) (w : Warp) (mask : Nat) (ob : Bool) : Bool :=
  w.threads.all (fun (l, _) => (maskRegs mask).all fun n => !s.pending ⟨wid, l⟩ n) &&
  (!ob || ((s.obldsOf wid).isEmpty && (s.quarter w.quarterOf).fabric.all fun p => p.wid != wid))

/-- R336: SAVEX for one warp. -/
def State.saveWarp (s : State) (f : XS) (wid : Nat) (m : Member) : Except Stop Unit × State :=
  match s.warp? wid with
  | none => (.ok (), s)
  | some w =>
    if !s.saveReady wid w (saveMask f) (saveOb f) then (.error .busy, s)
    else
      let base := (s.pair m f.a.toNat).toNat
      s.storeLines wid (headLines w base (saveMask f) (saveOb f) false false ++ regLines w base (saveMask f) (Config.choices s.turn) ++
        (if saveOb f then s.bufferImage w base else []))

/-- R336: RESTX for one warp. -/
def State.restoreWarp (s : State) (f : XS) (wid : Nat) (m : Member) : Except Stop Unit × State :=
  match s.warp? wid with
  | none => (.ok (), s)
  | some w =>
    let base := (s.pair m f.a.toNat).toNat
    if !s.saveReady wid w (saveMask f) (saveOb f) then (.error .busy, s)
    else match s.loadVirtual wid base 64 with
    | (.error x, t) => (.error x, t)
    | (.ok h, t) =>
      if 16 * (field h 63 56 + 1) ≠ w.alloc then (.error (plainFault Code.tState), s)
      else match t.loadRegs wid base (saveMask f) with
      | (.error x, u) => (.error x, u)
      | (.ok regs, u) =>
        let put (v : State) : State := v.modWarp wid fun w => regs.foldl (fun w (n, x) => w.putRegs n x) w
        if !saveOb f then (.ok (), put u)
        else match u.loadBuffers wid base with
        | (.error x, v) => (.error x, v)
        | (.ok (records, lines), v) =>
          if records.all (fun (_, r) => descriptorOk r.desc) && v.buffersFree wid w.quarterOf records then
            (.ok (), (put v).putBuffers wid w.quarterOf records lines)
          else (.error (plainFault Code.obState), s)

/-- R336: one attempt, once for each warp with an executing thread, with the address of its lowest. -/
def State.trySave (s : State) (id : Nat) (x : Wait) (f : XS) (act : State → Nat → Member → Except Stop Unit × State) : State :=
  let exec := s.waitExec x f.guard f.sense
  let (stops, t) := (warpsOf exec).foldl (fun (l, t) wid =>
    let own := exec.filter (·.wid == wid)
    match own with
    | [] => (l, t)
    | m :: _ => match act t wid m with
      | (.ok (), u) => (l, u)
      | (.error y, u) => (l ++ own.map fun k => (k, y), u)) (([] : List (Member × Stop)), s)
  match stops.find? fun y => y.2 = .busy with
  | some _ => s.heldUp .busy t
  | none => match s.waitSettle t id x stops with
    | some v => v
    | none => t.endWait id

def opSavex (f : XS) (s : State) : State := opSave f (.savex f) true s
def opRestx (f : XS) (s : State) : State := opSave f (.restx f) false s

def State.trySavex (s : State) (id : Nat) (x : Wait) (f : XS) : State := s.trySave id x f fun t wid m => t.saveWarp f wid m
def State.tryRestx (s : State) (id : Nat) (x : Wait) (f : XS) : State := s.trySave id x f fun t wid m => t.restoreWarp f wid m

/-! ### TRET (R322) -/

def opTret (len : Nat) (f : XS) (s : State) : State :=
  s.issue { shapeXS len f [] with place := .ending } fun e s =>
    let bad := e.exec.filter fun m => (s.warp? m.wid).any fun w => w.level == 0
    if !bad.isEmpty then .fault (allCauses bad Code.tState 0) 0 else .wait (.tret f) false s

/-- R190: the handler's own matrix instructions have retired. -/
def State.handlerDone (s : State) (wid : Nat) : Bool :=
  match s.warp? wid with | some w => (s.quarter w.quarterOf).fabric.all fun p => p.wid != wid | none => true

/-- TRET: one attempt. The threads of the returning warps leave this wait first; those of others end it. -/
def State.tryTret (s : State) (id : Nat) (x : Wait) (f : XS) : State :=
  let exec := s.waitExec x f.guard f.sense
  let wids := warpsOf exec
  if !wids.all s.handlerDone then s
  else
    let rest := x.members.filter fun m => !wids.contains m.wid
    let s1 : State := { s with waits := Tab.put s.waits id { x with members := rest } }
    let (stops, t) := wids.foldl (fun (l, t) wid =>
      match t.tret wid (f.simm.getLsbD 0) with
      | .done u => (l, u)
      | .bad c => (l ++ (exec.filter (·.wid == wid)).map fun m => (m, Stop.fault c 0), t)
      | .stop y u => (l ++ (exec.filter (·.wid == wid)).map fun m => (m, y), u)) (([] : List (Member × Stop)), s1)
    match stops.find? fun y => y.2 = .busy with
    | some _ => s.heldUp .busy t
    | none => match s.waitSettle t id x stops with
      | some v => v
      | none => wids.foldl (fun u w => u.deliverServices (u.ctxOf w)) (t.endWait id)

/-! ### PREACK (R324) -/

/-- R324: PREACK has an effect in a warp at level 1 whose frame is of kind 1; after the grace period it has none (R325). -/
def opPreack (len : Nat) (f : XS) (s : State) : State :=
  s.issue (shapeXS len f []) fun e s =>
    let bad := e.exec.filter fun m => (s.warp? m.wid).any fun w => w.level != 1 || w.frameKind != 1
    if !bad.isEmpty then .fault (allCauses bad Code.tState 0) 0
    else
      let on := e.exec.filter fun m => (s.warp? m.wid).any fun w => !w.graceOver
      .done (s.modMembers on fun t => { t with acked := true })

/-! ### Meanings -/

/-- TRAP, R334. -/
def execTrap (n : BitVec 7) (s : State) : Out := .next (opTrap 4 (s.sys32 0 0 (n.zeroExtend 16)) s)

/-- TRAP, 64-bit form, R334. -/
def execTrapW (f : XS) (s : State) : Out := .next (opTrap 8 f s)

/-- TRAP.SVC, R327, R334. -/
def execTrapSvc (n : BitVec 7) (a d : BitVec 7) (s : State) : Out := .next (opTrapSvc 4 (s.sys32 d a (n.zeroExtend 16)) s)

/-- TRAP.SVC, 64-bit form, R327, R334. -/
def execTrapSvcW (f : XS) (s : State) : Out := .next (opTrapSvc 8 f s)

/-- BKPT, R335. -/
def execBkpt (f : XS) (s : State) : Out := .next (opBkpt f s)

/-- TRET, R322. -/
def execTret (m : Bool) (s : State) : Out := .next (opTret 4 (s.sys32 0 0 (if m then 1 else 0)) s)

/-- TRET, 64-bit form, R322. -/
def execTretW (f : XS) (s : State) : Out := .next (opTret 8 f s)

/-- PREACK, R324. -/
def execPreack (s : State) : Out := .next (opPreack 4 (s.sys32 0 0 0) s)

/-- PREACK, 64-bit form, R324. -/
def execPreackW (f : XS) (s : State) : Out := .next (opPreack 8 f s)

/-- SAVEX, R336. -/
def execSavex (f : XS) (s : State) : Out := .next (opSavex f s)

/-- RESTX, R336. -/
def execRestx (f : XS) (s : State) : Out := .next (opRestx f s)

end Sys2Proof.Machine
end

