-- ==== Sys2Proof/Machine/Dram.lean ====
section
/-! DEFINITION. The memory channels (R386 to R388), evictions at a home (R383, R396), swaps line by line (R390) and migrations line by
line (R393). -/

namespace Sys2Proof.Machine

open Sys2Proof

/-! ### Command slots (R387, R388) -/

/-- R388: the class that a place of the window belongs to: four of class 1, two of class 2, one of class 3. -/
def windowClass (i : Nat) : Nat := if i < 4 then 1 else if i < 6 then 2 else 3

/-- R387: the requests of a channel that may be issued: none waits behind an earlier one for the same line. -/
def dramReady (q : List DramReq) : List DramReq :=
  (List.range q.length).filterMap fun i => q[i]?.filter fun r => !r.issued && (q.take i).all fun x => x.line != r.line

/-- R388: within a class, the earliest deadline, then the oldest. -/
def dramPick (cls : Nat) (l : List DramReq) : Option DramReq :=
  (l.filter (·.cls == cls)).foldl (fun b r => match b with
    | none => some r
    | some x => if serialAfter 16 x.deadline.toNat r.deadline.toNat then some r else some x) none

/-- R388: what a command slot serves, and the place of the window after it; class 0 uses none of its places. -/
def dramChoice (place : Nat) (l : List DramReq) : Option (DramReq × Nat) :=
  match dramPick 0 l with
  | some r => some (r, place)
  | none => (List.range 7).findSome? fun i =>
      let p := (place + i) % 7
      (dramPick (windowClass p) l).map fun r => (r, (p + 1) % 7)

/-- DRAM_COMMAND_SLOT, R388. -/
def execDramCommandSlot (ch : Nat) (s : State) : Out :=
  let q := Tab.getD s.dram ch []
  match dramChoice (Tab.getD s.dramSlot ch 0) (dramReady q) with
  | some (r, p) =>
    .next { s with dram := Tab.put s.dram ch (q.map fun x => if x = r then { x with issued := true } else x), dramSlot := Tab.put s.dramSlot ch p }
  | none => .next s

def State.putChannel (s : State) (ch : Nat) (q : List DramReq) : State :=
  { s with dram := if q.isEmpty then Tab.del s.dram ch else Tab.put s.dram ch q }

/-- R388, R403: an access that completes after its deadline. -/
def State.countMiss (s : State) (r : DramReq) : State :=
  if serialAfter 16 s.tenNs.toNat r.deadline.toNat then
    s.modCtx r.ctx fun c =>
      let n := Tab.getD c.misses r.cls 0
      { c with misses := Tab.put c.misses r.cls (if n = BitVec.allOnes 32 then n else n + 1) }
  else s

/-- R387: a read brings its line to the home; the bytes of a write reach DRAM. -/
def State.finishDram (s : State) (r : DramReq) : State :=
  let h := s.home r.line
  match r.write with
  | none => s.holdLine r.line
  | some (d, mask, key) =>
    let old := ((Tab.get? s.mem.dram r.line).map (·.1)).getD (s.homeData r.line)
    let new := (mergeLine old d mask, key)
    { s with mem := { s.mem with dram :=
        if new = (s.homeData r.line, h.key) then Tab.del s.mem.dram r.line else Tab.put s.mem.dram r.line new } }

/-- DRAM_ACCESS_COMPLETE, R388. -/
def execDramAccessComplete (ch : Nat) (s : State) : Out :=
  let q := Tab.getD s.dram ch []
  match q.find? (·.issued) with
  | some r => .next ((((s.putChannel ch (q.erase r)).countMiss r).finishDram r).answerDoorbells)
  | none => .next s

/-! ### Alerts (R386) -/

/-- R386: the channel has failed: its reads meet an uncorrectable error, and the lines of its writes are poisoned. -/
def State.failChannel (s : State) (ch : Nat) : State :=
  (Tab.getD s.dram ch []).foldl (fun t r =>
    t.putHome r.line (match r.write with
      | none => { t.home r.line with bad := true }
      | some _ => { t.home r.line with poisoned := true })) { s.putChannel ch [] with failedChannels := s.failedChannels ++ [ch] }

/-- HBM_ALERT, R386: the DRAM dropped one of the commands; it and what follows it are replayed. The alert on the fourth replay in a row
fails the channel. Which command it is, is free. -/
def execHbmAlert (ch : Nat) (s : State) : Out :=
  let q := Tab.getD s.dram ch []
  let issued := q.filter (·.issued)
  match issued[Config.choice s.turn % issued.length]? with
  | some r =>
    if 4 ≤ r.alerts then .next (s.failChannel ch)
    else .next (s.putChannel ch (q.map fun x => if x = r then { x with alerts := x.alerts + 1 } else x))
  | none => .next s

/-! ### Evictions (R383, R396) -/

/-- R393: the bridge holds the line for a migration that has read it. -/
def Migration.holds (m : Migration) (line : Nat) : Bool :=
  decide (m.src / 128 ≤ line) && decide (line < m.src / 128 + m.next) && isHost (line * 128)

/-- HOME_EVICTION, R396, R398: a host line's halves are given back, with DirtyEvict of what is modified, unless a migration holds
them; a device line keeps its half-states. -/
def execHomeEviction (line : Nat) (s : State) : Out :=
  if isHost (line * 128) then
    .next (if (s.migrations.any fun m => m.holds line) = true then s else s.putHome line { s.home line with half0 := .i, half1 := .i })
  else if isRemote (line * 128) then .next s
  else .next (s.evictDevice line)

/-! ### Swaps (R389, R390) -/

/-- R389: at most eight swaps of a quay die run, the earliest first; a frame takes part in one at a time. -/
def State.swapRuns (s : State) (id : Nat) (w : Swap) : Bool :=
  let earlier := s.swaps.filter fun (k, _) => decide (k < id)
  decide ((earlier.filter fun (_, x) => homeOf (x.near * 512) == homeOf (w.near * 512)).length < 8) &&
  earlier.all fun (_, x) => x.near != w.near && x.near != w.far && x.far != w.near && x.far != w.far

/-- R390: the end of a swap: the frames have exchanged their locations. -/
def State.finishSwap (s : State) (id : Nat) (w : Swap) : State :=
  let a := Tab.getD s.mem.frames w.near w.near
  let b := Tab.getD s.mem.frames w.far w.far
  let n : Notice := ⟨3, 0, BitVec.ofNat 56 (w.far * 65536), BitVec.ofNat 56 (w.near * 65536), 0, 0⟩
  { s with
    swaps := Tab.del s.swaps id
    mem := { s.mem with frames := Tab.put (Tab.put s.mem.frames w.near b) w.far a }
    host := { s.host with notices := s.host.notices ++ [n] } }

/-- SWAP_LINE_STEP, R390: the lines of lowest index not yet exchanged are exchanged. Contents and times belong to addresses, so that
the step moves their location alone; it comes about between accesses of the channels to them. -/
def execSwapLineStep (id : Nat) (s : State) : Out :=
  match Tab.get? s.swaps id with
  | none => .next s
  | some w =>
    if !s.swapRuns id w then .next s
    else match (List.range 512).find? fun i => !w.progress.getLsbD i with
    | none => .next (s.finishSwap id w)
    | some i =>
      let busy := s.dram.any fun (_, q) => q.any fun r => r.line == w.near * 512 + i || r.line == w.far * 512 + i
      if busy then .next s
      else
        let w' := { w with progress := w.progress ||| BitVec.twoPow 512 i }
        let t : State := { s with swaps := Tab.put s.swaps id w' }
        .next (if w'.progress = BitVec.allOnes 512 then t.finishSwap id w' else t)

/-! ### Migrations (R393) -/

def State.putMigration (s : State) (m n : Migration) : State := { s with migrations := s.migrations.map fun x => if x = m then n else x }

/-- R268, R341, R392, R393: a migration completes as a tile task, and posts its entry. As a task the status of one that is DIRTIED is OK
(DESIGN CHOICE, log entry 122). -/
def State.finishMigration (s : State) (m : Migration) : State :=
  let status := if m.failed then 2 else if m.dirtied then 1 else 0
  let st : BitVec 32 := if m.failed then 1 else 0
  let n : Notice := ⟨2, m.ctx, BitVec.ofNat 56 m.src, BitVec.ofNat 56 m.dst, 0, status⟩
  let t : State := { s with migrations := s.migrations.erase m, host := { s.host with notices := s.host.notices ++ [n] } }
  (t.modEngine (queueKey (m.die * 64 + 48) m.ctx) fun q => q.settle m.seq st m.time).recordMigration m 0x0E st.toNat

/-- R393: a source error: the lines not yet copied are poisoned. -/
def State.failMigration (s : State) (m : Migration) : State :=
  let lines := m.copied.map (·.1) ++ (List.range (512 - m.next)).map (m.next + ·)
  let t := lines.foldl (fun t i =>
    let l := m.dst / 128 + i
    t.putHome l { t.home l with dir := .home, poisoned := true }) s
  let m' := { m with failed := true }
  (t.putMigration m m').finishMigration m'

/-- R393: the next source line, read as a fresh load. -/
def State.migrationRead (s : State) (m : Migration) : EngineRead × State :=
  if s.keyGone m.ctx then (.bad, s)
  else s.engineLine m.ctx (m.die * 384) (m.src / 128 + m.next) m.ts true (some (m.die * 64 + 48, m.seq.toNat)) false

/-- R242, R393: a line that has been read is written at its home, where it leaves MIGRATING. -/
def State.migrationWrite (s : State) (m : Migration) (i : Nat) (d : Line) : State :=
  let dst := m.dst / 128 + i
  let eng := m.die * 64 + 48
  match s.openOwned dst m.ctx (BitVec.allOnes 128) false none true (some (eng, m.seq.toNat)) (engineIndex eng) fun _ => false with
  | (false, t) => t
  | (true, t) =>
    let (w, t1) := t.homeStore dst m.ts
    let t2 := (t1.writeHome dst (t1.keyTag m.ctx) m.ctx d (BitVec.allOnes 128)).markEngine dst
    let t3 := t2.putHome dst { t2.home dst with dir := .home }
    let m' := { m with copied := Tab.del m.copied i, time := maxs m.time w }
    let t4 := t3.putMigration m m'
    if m'.next = 512 && m'.copied.isEmpty then t4.finishMigration m' else t4

/-- R243: the line that is published next of those read: in the ordered mode the first; in the unordered mode any of at most 256 that
wait in the reorder buffer, or for now none while another line can still be read. -/
def State.nextMigrated (s : State) (m : Migration) : Option (Nat × Line) :=
  if s.orderedFlow migrationFlow then m.copied.head?
  else
    let more := if m.next < 512 ∧ m.copied.length < reorderEntries then 1 else 0
    m.copied[Config.choices s.turn migrationFlow % (m.copied.length + more)]?

/-- MIGRATION_LINE_COPY, R243, R393: of the die's earliest migration a line is read, and one is published. -/
def execMigrationLineCopy (die : Nat) (s : State) : Out :=
  let publish (t : State) (m : Migration) : State := match t.nextMigrated m with | some (i, d) => t.migrationWrite m i d | none => t
  match s.migrations.find? (·.die == die) with
  | none => .next s
  | some m =>
    if 512 ≤ m.next ∨ reorderEntries ≤ m.copied.length ∨ (s.orderedFlow migrationFlow ∧ !m.copied.isEmpty) then .next (publish s m)
    else match s.migrationRead m with
    | (.waits, t) => .next t
    | (.data d _, t) =>
      let m' := { m with next := m.next + 1, copied := Tab.put m.copied m.next d }
      .next (publish (t.putMigration m m') m')
    | (_, t) => .next (t.failMigration m)

end Sys2Proof.Machine
end

