-- ==== Sys2Proof/Machine/Bridge.lean ====
section
/-! DEFINITION. The breakwater bridge (R395 to R398): the host's answers, its snoops, and its requests for device memory. -/

namespace Sys2Proof.Machine

open Sys2Proof

/-- 64 bytes in a half of a line. -/
def halfLine (half : Bool) (d : BitVec 512) : Line := BitVec.ofNat 1024 (if half then d.toNat * 2 ^ 512 else d.toNat)

/-- The bytes of a half, by a mask of 64. -/
def halfBytes (half : Bool) (m : BitVec 64) : LineMask := BitVec.ofNat 128 (if half then m.toNat * 2 ^ 64 else m.toNat)

def State.setHalf (s : State) (line : Nat) (half : Bool) (x : Half) : State := s.putHome line ((s.home line).setHalf half x)

/-! ### Answers to the bridge's requests (R396) -/

/-- The bridge's request for a half that is answered next. -/
def State.asked (s : State) (line : Nat) (half : Bool) : Option BridgeReq := s.mem.bridge.find? fun r => r.line == line && r.half == half

def State.answered (s : State) (r : BridgeReq) : State := { s with mem := { s.mem with bridge := s.mem.bridge.filter (· != r) } }

/-- R396: a line that enters the home from the host. No lease was granted on what it now holds. -/
def State.enterHome (s : State) (line : Nat) : State :=
  let h := s.home line
  let w := maxs h.wts (s.clock (homeClockKey (homeOf line)))
  s.putHome line { h with wts := w, rts := maxs h.rts w }

/-- HOST_DATA_RESPONSE, R396: the half's bytes, where the request fetched them, and its state. -/
def execHostDataResponse (line : Nat) (half : Bool) (data : BitVec 512) (excl : Bool) (s : State) : Out :=
  match s.asked line half with
  | none => .next s
  | some r =>
    let fetched (t : State) : State :=
      { t with mem := t.mem.writeMasked (line * 128) (halfBytes half (BitVec.allOnes 64)).toNat (bytesOf (halfLine half data).toNat 128) }
    let t := s.answered r
    match r.op with
    | .rdShared => .next ((((fetched t).enterHome line).setHalf line half (if excl then .e else .s)).answerDoorbells)
    | .rdOwn => .next ((((fetched t).enterHome line).setHalf line half .m).answerDoorbells)
    | .itoMWr => .next ((t.enterHome line).setHalf line half .m)
    | .rdCurr => .next (fetched t).answerDoorbells
    | .biSnpData | .biSnpInv => .next s

/-! ### Snoops (R397) -/

/-- R397: a snoop is answered once the line's engine has written it or given it up. -/
def State.snoopable (s : State) (line : Nat) : Bool :=
  isHost (line * 128) && match (s.home line).dir with | .engine _ => false | _ => true

/-- R240, R397: a die-exclusive lease is recalled first. -/
def State.snooped (s : State) (line : Nat) : State := s.recall line

/-- SNP_DATA, R397. -/
def execSnpData (line : Nat) (half : Bool) (s : State) : Out :=
  if !s.snoopable line then .next s
  else
    let t := s.snooped line
    .next (if (t.home line).half half = .i then t else t.setHalf line half .s)

/-- SNP_INV, R397: the half goes to the host under the host write rule; a migration that has read the line is marked (R393). -/
def execSnpInv (line : Nat) (half : Bool) (s : State) : Out :=
  if !s.snoopable line then .next s
  else
    let t := s.snooped line
    if (t.home line).half half = .i then .next t
    else
      let u := (t.hostWriteRule line).setHalf line half .i
      .next { u with migrations := u.migrations.map fun m => { m with dirtied := m.dirtied || m.holds line } }

/-- SNP_CUR, R397: the current value is answered, and no state changes. -/
def execSnpCur (line : Nat) (_half : Bool) (s : State) : Out := .next (if s.snoopable line then s.snooped line else s)

/-! ### Requests of the host for device memory (R382, R398) -/

/-- R382, R403: a poisoned response is counted in LINKST. At which port the count is kept, is free (log entry 25). -/
def State.countPoisoned (s : State) : State :=
  let p := Config.choice s.turn % 9
  let x := s.port p
  s.putPort p { x with poisoned := min 7 (x.poisoned + 1) }

/-- R415: CXL.cache and CXL.mem work. -/
def State.hostServed (s : State) : Bool := s.mgmt.stage == 3 && s.mgmt.linkTrained

/-- A line of device memory that the package has. -/
def State.deviceLine (s : State) (line : Nat) : Bool := s.backed (line * 128) && !isHost (line * 128) && !isRemote (line * 128)

/-- R381, R398: a host request is held while a back-invalidation of the half is in flight, or an engine or a migration holds the
line. -/
def State.hostHeld (s : State) (line : Nat) (half : Bool) : Bool :=
  (s.asked line half).isSome || match (s.home line).dir with | .engine _ | .migrating => true | _ => false

/-- R382: a frame that a host may address. -/
def State.hostShared (s : State) (line : Nat) : Bool := Config.hostShared s.host.config (frameOf line)

/-- R398: the half-state that a request's meta names. -/
def metaHalf : HostMeta → Option Half
  | .noMeta => none
  | .i => some .i
  | .s => some .s
  | .a => some .a

/-- R241, R381: a host request that takes ownership of a line contends for it with the bridge's index. A counted line is served at its
copy. -/
def State.hostOwns (s : State) (line : Nat) : Bool × State :=
  if (Tab.get? s.mem.counted line).isSome then (true, s) else s.contend line (some bridgeIndex) fun _ => false

/-- R213, R381: bytes that the host writes: at the copy of a counted line, whose dropped one takes nothing, or at the home, under the host
write rule. -/
def State.hostStore (s : State) (line : Nat) (data : Line) (mask : LineMask) : State :=
  match Tab.get? s.mem.counted line with
  | some c => if c.count = 0 then s else
      { s with mem := { s.mem with counted := Tab.put s.mem.counted line { c with data := mergeLine c.data data mask } } }
  | none => s.ruleWrite line (s.keyTag packageUse) packageUse data mask

/-- MEM_RD, R381, R382, R398: meta S and A make the half S and A. That of a dropped counted line is answered with poison: R213 gives it no
value (DESIGN CHOICE, log entry 123). -/
def execMemRd (line : Nat) (half : Bool) (md : HostMeta) (s : State) : Out :=
  if !s.hostServed || !s.deviceLine line then .next s
  else if !s.hostShared line || (Tab.get? s.mem.counted line).any (·.count == 0) then .next s.countPoisoned
  else if s.hostHeld line half then .next s
  else
    let t := s.recall line
    if !t.lineHeld line && (Tab.get? s.mem.counted line).isNone then .next (t.askDram line packageUse false)
    else match md with
    | .s => .next (t.setHalf line half .s)
    | .a => match t.hostOwns line with
      | (true, u) => .next (u.setHalf line half .a)
      | (false, u) => .next u
    | _ => .next t

/-- MEM_WR, R398: the bytes are merged at the home under the host write rule. -/
def execMemWr (line : Nat) (half : Bool) (data : BitVec 512) (mask : BitVec 64) (md : HostMeta) (s : State) : Out :=
  if !s.hostServed || !s.deviceLine line then .next s
  else if !s.hostShared line then .next s.countPoisoned
  else if s.hostHeld line half then .next s
  else match (s.recall line).hostOwns line with
    | (false, t) => .next t
    | (true, t) =>
      let u := t.hostStore line (halfLine half data) (halfBytes half mask)
      .next (match metaHalf md with | some x => u.setHalf line half x | none => u)

/-- R398: the modified bytes that come before a response to a back-invalidation. -/
def State.biData (s : State) (line : Nat) (half : Bool) (data : Option (BitVec 512)) : State :=
  match data with
  | some d => s.ruleWrite line (s.keyTag packageUse) packageUse (halfLine half d) (halfBytes half (BitVec.allOnes 64))
  | none => s

/-- BI_RSP_S, R398. -/
def execBiRspS (line : Nat) (half : Bool) (data : Option (BitVec 512)) (s : State) : Out :=
  let r : BridgeReq := ⟨line, half, .biSnpData⟩
  .next (if s.mem.bridge.contains r then ((s.answered r).biData line half data).setHalf line half .s else s)

/-- BI_RSP_I, R398. -/
def execBiRspI (line : Nat) (half : Bool) (data : Option (BitVec 512)) (s : State) : Out :=
  let r : BridgeReq := ⟨line, half, .biSnpInv⟩
  .next (if s.mem.bridge.contains r then ((s.answered r).biData line half data).setHalf line half .i else s)

/-- FUNCTION_LEVEL_RESET, R395: the bridge supports it, and no rule says what it does: the configuration space returns to its reset
contents, as CXL.io has it (PRESUMED, log entry 124). -/
def execFunctionLevelReset (s : State) : Out := .next { s with host := { s.host with config := [] } }

end Sys2Proof.Machine
end

