-- ==== Sys2Proof/Machine/Compare.lean ====
section
/-! DEFINITION. Comparisons, selection, moves, 64-bit address arithmetic and predicates (R88, R89, R98 to R101). -/

namespace Sys2Proof.Machine

open Sys2Proof

/-! ### Compare, select and move -/

def opIcmp (len : Nat) (f : X3) (s : State) : State := s.op2 len f fun a b => threeWay a b (f.ty == 1)

/-- R98: destination predicate and condition of a comparison to predicate. -/
def predOf (d : BitVec 8) : Nat := (d.extractLsb' 0 4).toNat
def condOf (d : BitVec 8) : Nat := (d.extractLsb' 4 3).toNat

def opIcmpp (len : Nat) (f : X3) (s : State) : State :=
  s.issue (shapeX3 len f [r1 f.a, r1 f.b]) fun e s =>
    .done (e.writePred s (predOf f.d) fun m => compareWords (condOf f.d) (f.ty == 1) (s.reg m f.a.toNat) (s.reg m f.b.toNat))

/-- R98: the immediate form of ICMP compares signed; that of ICMPP unsigned when D[7] is set. -/
def opIcmpImm (len : Nat) (f : XI) (s : State) : State := s.opImm len f fun a b => threeWay a b false

def opIcmppImm (len : Nat) (f : XI) (s : State) : State :=
  s.issue (shapeXI len f [r1 f.a]) fun e s =>
    .done (e.writePred s (predOf f.d) fun m => compareWords (condOf f.d) (f.d.getLsbD 7) (s.reg m f.a.toNat) f.imm)

/-- R99: SEL; the predicate is in C and its negation in SCOPE[0]. -/
def opSel (len : Nat) (f : X3) (s : State) : State :=
  s.issue (shapeX3 len f [r1 f.d, r1 f.a, r1 f.b]) fun e s =>
    .done (e.write s f.d.toNat fun m =>
      if s.pred m f.c.toNat != f.scope.getLsbD 0 then s.reg m f.a.toNat else s.reg m f.b.toNat)

/-- R99: MOV. -/
def opMov (len : Nat) (f : X3) (s : State) : State :=
  s.issue (shapeX3 len f [r1 f.d, r1 f.b]) fun e s => .done (e.write s f.d.toNat fun m => s.reg m f.b.toNat)

def opMovi (len : Nat) (f : XI) (s : State) : State :=
  s.issue (shapeXI len f [r1 f.d]) fun e s => .done (e.write s f.d.toNat fun _ => f.imm)

/-! ### 64-bit addresses (R100) -/

def opPair2 (len : Nat) (f : X3) (g : DWord → DWord → DWord) (s : State) : State :=
  s.issue (shapeX3 len f [r2 f.d, r2 f.a, r2 f.b]) fun e s =>
    .done (e.writePair s f.d.toNat fun m => g (s.pair m f.a.toNat) (s.pair m f.b.toNat))

def opAdd64 (len : Nat) (f : X3) (s : State) : State := opPair2 len f (fun a b => a + b) s
def opSub64 (len : Nat) (f : X3) (s : State) : State := opPair2 len f (fun a b => a - b) s

def opShl64 (len : Nat) (f : X3) (s : State) : State :=
  s.issue (shapeX3 len f [r2 f.d, r2 f.a, r1 f.b]) fun e s =>
    .done (e.writePair s f.d.toNat fun m =>
      if 64 ≤ (s.reg m f.b.toNat).toNat then 0 else s.pair m f.a.toNat <<< (s.reg m f.b.toNat).toNat)

def opCmp64 (len : Nat) (f : X3) (s : State) : State :=
  s.issue (shapeX3 len f [r2 f.a, r2 f.b]) fun e s =>
    .done (e.writePred s (predOf f.d) fun m => compareWords (condOf f.d) (f.ty == 4) (s.pair m f.a.toNat) (s.pair m f.b.toNat))

/-- R100: a word extended to 64 bits. -/
def widen (unsigned : Bool) (x : Word) : DWord := if unsigned then x.zeroExtend 64 else x.signExtend 64

def opMad64 (len : Nat) (f : X3) (s : State) : State :=
  s.issue { shapeX3 len f [r2 f.d, r2 f.a, r1 f.b, r2 f.c] with cycles := 2 } fun e s =>
    .done (e.writePair s f.d.toNat fun m =>
      s.pair m f.c.toNat + s.pair m f.a.toNat * widen (f.ty == 1) (s.reg m f.b.toNat))

def opLea (len : Nat) (f : X3) (s : State) : State :=
  s.issue (shapeX3 len f [r2 f.d, r2 f.a, r1 f.b]) fun e s =>
    .done (e.writePair s f.d.toNat fun m =>
      s.pair m f.a.toNat + (widen (f.scope.getLsbD 0) (s.reg m f.b.toNat) <<< (f.c.extractLsb' 0 3).toNat))

def opAdd64Imm (len : Nat) (f : XI) (s : State) : State :=
  s.issue (shapeXI len f [r2 f.d, r2 f.a]) fun e s =>
    .done (e.writePair s f.d.toNat fun m => s.pair m f.a.toNat + f.imm.signExtend 64)

/-- R100: LEA's immediate form has the same effect as ADD64's. -/
def opLeaImm (len : Nat) (f : XI) (s : State) : State :=
  s.issue (shapeXI len f [r2 f.d, r2 f.a]) fun e s =>
    .done (e.writePair s f.d.toNat fun m => s.pair m f.a.toNat + f.imm.signExtend 64)

/-! ### Predicates (R101) -/

/-- R101: PLOP's operation. -/
def plopResult (op : Nat) (a b : Bool) : Bool := match op with | 0 => a && b | 1 => a || b | _ => a != b

def opPlop (len : Nat) (f : X3) (s : State) : State :=
  s.issue (shapeX3 len f []) fun e s =>
    .done (e.writePred s (predOf f.d) fun m =>
      plopResult (f.d.extractLsb' 5 2).toNat (s.predNeg m f.a.toNat) (s.predNeg m f.b.toNat) != f.d.getLsbD 4)

/-- R101: predicates from a register under a mask. -/
def Thread.loadPreds (t : Thread) (a b : Word) : Thread :=
  { t with preds := (t.preds &&& ~~~(b.extractLsb' 0 12)) ||| (a.extractLsb' 0 12 &&& b.extractLsb' 0 12) }

def State.predMask (s : State) (m : Member) : BitVec 12 := match s.thread? m with | some t => t.preds | none => 0

def opPmov (len : Nat) (f : X3) (s : State) : State :=
  if f.scope.getLsbD 0 then
    s.issue (shapeX3 len f [r1 f.a, r1 f.b]) fun e s =>
      .done (e.exec.foldl (fun t m => t.modThread m fun u => u.loadPreds (s.reg m f.a.toNat) (s.reg m f.b.toNat)) s)
  else
    s.issue (shapeX3 len f [r1 f.d]) fun e s => .done (e.write s f.d.toNat fun m => (s.predMask m).zeroExtend 32)

def opPset (len : Nat) (f : X3) (s : State) : State :=
  s.issue (shapeX3 len f [r1 f.a, r1 f.b]) fun e s =>
    .done (e.writePred s (predOf f.d) fun m => (s.reg m f.a.toNat).getLsbD ((s.reg m f.b.toNat).toNat % 32))

def opPcnt (len : Nat) (f : X3) (s : State) : State :=
  s.issue (shapeX3 len f [r1 f.d, r1 f.a]) fun e s =>
    .done (e.write s f.d.toNat fun m =>
      BitVec.ofNat 32 ((List.range 12).filter fun i => (s.predMask m).getLsbD i && (s.reg m f.a.toNat).getLsbD i).length)

/-! ### Meanings -/

/-- MOV_16, R63. -/
def execMov16 (y : BitVec 5) (x : BitVec 6) (s : State) : Out :=
  .next (opMov 2 (s.form16 y x) s)

/-- SEL, R99. -/
def execSel (m : Bool) (b : BitVec 7) (a : BitVec 7) (d : BitVec 7) (s : State) : Out :=
  .next (opSel 4 { s.form32 b a d with scope := scopeBit m } s)

/-- SEL_W, R99. -/
def execSelW (f : X3) (s : State) : Out :=
  .next (opSel 8 f s)

/-- MOV, R99. -/
def execMov (b : BitVec 7) (a : BitVec 7) (d : BitVec 7) (s : State) : Out :=
  .next (opMov 4 (s.form32 b a d) s)

/-- MOV_W, R99. -/
def execMovW (f : X3) (s : State) : Out :=
  .next (opMov 8 f s)

/-- ICMP, R98. -/
def execIcmp (m : Bool) (b : BitVec 7) (a : BitVec 7) (d : BitVec 7) (s : State) : Out :=
  .next (opIcmp 4 { s.form32 b a d with ty := pick m 0 1 } s)

/-- ICMP_W, R98. -/
def execIcmpW (f : X3) (s : State) : Out :=
  .next (opIcmp 8 f s)

/-- ICMPP, R98. -/
def execIcmpp (m : Bool) (b : BitVec 7) (a : BitVec 7) (d : BitVec 7) (s : State) : Out :=
  .next (opIcmpp 4 { s.form32 b a d with ty := pick m 0 1 } s)

/-- ICMPP_W, R98. -/
def execIcmppW (f : X3) (s : State) : Out :=
  .next (opIcmpp 8 f s)

/-- ADD64, R100. -/
def execAdd64 (b : BitVec 7) (a : BitVec 7) (d : BitVec 7) (s : State) : Out :=
  .next (opAdd64 4 (s.form32 b a d) s)

/-- ADD64_W, R100. -/
def execAdd64W (f : X3) (s : State) : Out :=
  .next (opAdd64 8 f s)

/-- SUB64, R100. -/
def execSub64 (b : BitVec 7) (a : BitVec 7) (d : BitVec 7) (s : State) : Out :=
  .next (opSub64 4 (s.form32 b a d) s)

/-- SUB64_W, R100. -/
def execSub64W (f : X3) (s : State) : Out :=
  .next (opSub64 8 f s)

/-- SHL64, R100. -/
def execShl64 (b : BitVec 7) (a : BitVec 7) (d : BitVec 7) (s : State) : Out :=
  .next (opShl64 4 (s.form32 b a d) s)

/-- SHL64_W, R100. -/
def execShl64W (f : X3) (s : State) : Out :=
  .next (opShl64 8 f s)

/-- CMP64, R100. -/
def execCmp64 (m : Bool) (b : BitVec 7) (a : BitVec 7) (d : BitVec 7) (s : State) : Out :=
  .next (opCmp64 4 { s.form32 b a d with ty := pick m 3 4 } s)

/-- CMP64_W, R100. -/
def execCmp64W (f : X3) (s : State) : Out :=
  .next (opCmp64 8 f s)

/-- MAD64, R100. -/
def execMad64 (b : BitVec 7) (a : BitVec 7) (d : BitVec 7) (s : State) : Out :=
  .next (opMad64 4 (accumulating (s.form32 b a d)) s)

/-- MAD64_W, R100. -/
def execMad64W (f : X3) (s : State) : Out :=
  .next (opMad64 8 f s)

/-- LEA, R100. -/
def execLea (m : Bool) (b : BitVec 7) (a : BitVec 7) (d : BitVec 7) (s : State) : Out :=
  .next (opLea 4 { s.form32 b a d with scope := scopeBit m } s)

/-- LEA_W, R100. -/
def execLeaW (f : X3) (s : State) : Out :=
  .next (opLea 8 f s)

/-- PLOP, R101. -/
def execPlop (b : BitVec 7) (a : BitVec 7) (d : BitVec 7) (s : State) : Out :=
  .next (opPlop 4 (s.form32 b a d) s)

/-- PLOP_W, R101. -/
def execPlopW (f : X3) (s : State) : Out :=
  .next (opPlop 8 f s)

/-- PMOV, R101. -/
def execPmov (m : Bool) (b : BitVec 7) (a : BitVec 7) (d : BitVec 7) (s : State) : Out :=
  .next (opPmov 4 { s.form32 b a d with scope := scopeBit m } s)

/-- PMOV_W, R101. -/
def execPmovW (f : X3) (s : State) : Out :=
  .next (opPmov 8 f s)

/-- PSET, R101. -/
def execPset (b : BitVec 7) (a : BitVec 7) (d : BitVec 7) (s : State) : Out :=
  .next (opPset 4 (s.form32 b a d) s)

/-- PSET_W, R101. -/
def execPsetW (f : X3) (s : State) : Out :=
  .next (opPset 8 f s)

/-- PCNT, R101. -/
def execPcnt (a : BitVec 7) (d : BitVec 7) (s : State) : Out :=
  .next (opPcnt 4 (s.form32 0 a d) s)

/-- PCNT_W, R101. -/
def execPcntW (f : X3) (s : State) : Out :=
  .next (opPcnt 8 f s)

/-- MOVI, R99: a 14-bit signed immediate. -/
def execMovi (k : BitVec 14) (d : BitVec 7) (s : State) : Out :=
  .next (opMovi 4 { s.imm32 0 0 d with imm := k.signExtend 32 } s)

/-- MOVI_W, R99. -/
def execMoviW (f : XI) (s : State) : Out :=
  .next (opMovi 8 f s)

/-- ICMP_IMM, R98. -/
def execIcmpImm (i : BitVec 7) (a : BitVec 7) (d : BitVec 7) (s : State) : Out :=
  .next (opIcmpImm 4 (s.imm32 i a d) s)

/-- ICMP_IMM_W, R98. -/
def execIcmpImmW (f : XI) (s : State) : Out :=
  .next (opIcmpImm 8 f s)

/-- ICMPP_IMM, R98. -/
def execIcmppImm (m : Bool) (i : BitVec 7) (a : BitVec 7) (d : BitVec 7) (s : State) : Out :=
  .next (opIcmppImm 4 { s.imm32 i a d with d := BitVec.ofBool m ++ d } s)

/-- ICMPP_IMM_W, R98. -/
def execIcmppImmW (f : XI) (s : State) : Out :=
  .next (opIcmppImm 8 f s)

/-- LEA_IMM, R100. -/
def execLeaImm (i : BitVec 7) (a : BitVec 7) (d : BitVec 7) (s : State) : Out :=
  .next (opLeaImm 4 (s.imm32 i a d) s)

/-- LEA_IMM_W, R100. -/
def execLeaImmW (f : XI) (s : State) : Out :=
  .next (opLeaImm 8 f s)

/-- ADD64_IMM, R100. -/
def execAdd64Imm (i : BitVec 7) (a : BitVec 7) (d : BitVec 7) (s : State) : Out :=
  .next (opAdd64Imm 4 (s.imm32 i a d) s)

/-- ADD64_IMM_W, R100. -/
def execAdd64ImmW (f : XI) (s : State) : Out :=
  .next (opAdd64Imm 8 f s)

end Sys2Proof.Machine
end

