-- ==== Sys2Proof/Machine/CrossLane.lean ====
section
/-! DEFINITION. The lane partition and the cross-lane instructions (R136, R147 to R157). -/

namespace Sys2Proof.Machine

open Sys2Proof

/-- R147: the register of the member mask, where the form has one. -/
def maskReg (f : X3) : List (Nat × Nat) := if f.scope.getLsbD 1 then [] else [r1 f.c]

def shapeXL (len : Nat) (f : X3) (regs : List (Nat × Nat)) : Shape :=
  { shapeX3 len f (regs ++ maskReg f) with place := .leading }

/-- R136: PART of the group's warp. -/
def State.partOf (s : State) (m : Member) : Nat := match s.warp? m.wid with | some w => w.part | none => 32

/-- R149: the active lane of that number in the tile of a member. -/
def Env.active? (e : Env) (s : State) (m : Member) (k : Nat) : Option Member :=
  e.exec.find? fun x => x.wid == m.wid && x.lane == k && x.lane / s.partOf m == m.lane / s.partOf m

/-- R149: the active lanes of a member's tile, in ascending order. -/
def Env.tile (e : Env) (s : State) (m : Member) : List Member :=
  e.exec.filter fun x => x.wid == m.wid && x.lane / s.partOf m == m.lane / s.partOf m

/-! ### PARTSET (R151) -/

def opPartset (len : Nat) (f : X3) (s : State) : State :=
  s.issue { shapeX3 len f [] with place := .leading } fun e s =>
    .done ((warpsOf e.exec).foldl (fun t w => t.modWarp w fun x => { x with part := 2 ^ (f.b.extractLsb' 0 3).toNat }) s)

/-! ### SHFL and PAIRX (R152, R153) -/

/-- R152: the index in the tile that a lane operand names. -/
def shflIndex (mode T i : Nat) (b : Word) : Int :=
  match mode with
  | 0 => b.toNat
  | 1 => ((i : Int) + b.toInt) % T
  | 2 => (i : Int) + b.toInt
  | _ => (BitVec.ofNat 32 i ^^^ b).toNat

def Env.shfl (e : Env) (s : State) (f : X3) (m : Member) : Word :=
  let T := s.partOf m
  let j := shflIndex f.rm.toNat T (m.lane % T) (s.reg m f.b.toNat)
  if 0 ≤ j ∧ j < T then
    match e.active? s m (m.lane / T * T + j.toNat) with
    | some k => s.reg k f.a.toNat
    | none => s.reg m f.a.toNat
  else s.reg m f.a.toNat

def opShfl (len : Nat) (f : X3) (s : State) : State :=
  s.issue (shapeXL len f [r1 f.d, r1 f.a, r1 f.b]) fun e s => .done (e.write s f.d.toNat (e.shfl s f))

/-- R153: the sign bits that .neg flips. -/
def negMask (ty : BitVec 4) : Word := if ty = 2 then 0x80000000#32 else 0x80008000#32

def Env.pairx (e : Env) (s : State) (f : X3) (m : Member) : Word :=
  let d := 2 ^ (f.b.extractLsb' 0 3).toNat
  let p := (BitVec.ofNat 5 m.lane ^^^ BitVec.ofNat 5 d).toNat
  if s.partOf m ≤ d then s.reg m f.a.toNat
  else match e.active? s m p with
    | none => s.reg m f.a.toNat
    | some k => if m.lane < p ∧ f.scope.getLsbD 0 then s.reg k f.a.toNat ^^^ negMask f.ty else s.reg k f.a.toNat

def opPairx (len : Nat) (f : X3) (s : State) : State :=
  s.issue (shapeXL len f [r1 f.d, r1 f.a]) fun e s => .done (e.write s f.d.toNat (e.pairx s f))

/-! ### VOTE and MATCH (R154, R155) -/

/-- R154: the predicate of a lane, negated by A[4]. -/
def voteOf (s : State) (f : X3) (m : Member) : Bool := s.predNeg m (f.a.extractLsb' 0 5).toNat

def Env.vote (e : Env) (s : State) (f : X3) (m : Member) : Bool :=
  let vs := (e.tile s m).map (voteOf s f)
  match f.rm.toNat with
  | 1 => vs.any id
  | 2 => vs.all id
  | _ => vs.all id || !vs.any id

def opVote (len : Nat) (f : X3) (s : State) : State :=
  s.issue (shapeXL len f (if f.rm = 0 then [r1 f.d] else [])) fun e s =>
    .done (if f.rm = 0 then e.write s f.d.toNat fun m => maskOf (((e.tile s m).filter (voteOf s f)).map (·.lane))
           else e.writePred s (f.d.extractLsb' 0 4).toNat (e.vote s f))

def Env.matching (e : Env) (s : State) (f : X3) (m : Member) : Word :=
  let t := e.tile s m
  let same := t.filter fun k => s.reg k f.a.toNat == s.reg m f.a.toNat
  if f.scope.getLsbD 0 then (if same.length = t.length then maskOf (t.map (·.lane)) else 0) else maskOf (same.map (·.lane))

def opMatch (len : Nat) (f : X3) (s : State) : State :=
  s.issue (shapeXL len f [r1 f.d, r1 f.a]) fun e s => .done (e.write s f.d.toNat (e.matching s f))

/-! ### REDUX and SCAN (R156) -/

/-- The integer operations. -/
def reduceInt (op : Nat) (unsigned : Bool) (a b : Word) : Word :=
  match op with
  | 0 => a + b
  | 1 => if (if unsigned then a.ult b else a.slt b) then a else b
  | 2 => if (if unsigned then a.ult b else a.slt b) then b else a
  | 3 => a &&& b
  | 4 => a ||| b
  | _ => a ^^^ b

/-- The result where no lane is reduced. -/
def reduceIdentity (op : Nat) (ty : BitVec 4) : Word :=
  match op with
  | 1 => if ty = 2 then 0x7F800000#32 else if ty = 1 then 0xFFFFFFFF#32 else 0x7FFFFFFF#32
  | 2 => if ty = 2 then 0xFF800000#32 else if ty = 1 then 0 else 0x80000000#32
  | 3 => 0xFFFFFFFF#32
  | _ => 0

/-- R156: the reduction of a list of lanes' values. -/
def reduceList (f : X3) (l : List Word) : Word :=
  let op := (f.b.extractLsb' 0 3).toNat
  match l with
  | [] => reduceIdentity op f.ty
  | x :: rest =>
    if f.ty = 2 then
      if op = 0 then
        BitVec.ofNat 32 (roundFlush fp32 (Rounding.ofCode f.rm.toNat) false (f.ftz == 1)
          (Real.sum (Rounding.ofCode f.rm.toNat) (l.map fun v => fp32.read (f.ftz == 1) v.toNat)))
      else
        let pick (a b : Nat) := fSelect fp32 (op == 2) (f.ftz == 1) a b
        BitVec.ofNat 32 (rest.foldl (fun a v => pick a v.toNat) (pick x.toNat x.toNat))
    else rest.foldl (reduceInt op (f.ty == 1)) x

def opRedux (len : Nat) (f : X3) (s : State) : State :=
  s.issue { shapeXL len f [r1 f.d, r1 f.a] with cycles := 2 } fun e s =>
    .done (e.write s f.d.toNat fun m => reduceList f ((e.tile s m).map fun k => s.reg k f.a.toNat))

def opScan (len : Nat) (f : X3) (s : State) : State :=
  s.issue { shapeXL len f [r1 f.d, r1 f.a] with cycles := 2 } fun e s =>
    .done (e.write s f.d.toNat fun m =>
      reduceList f (((e.tile s m).filter fun k => decide (k.lane < m.lane) || (k.lane == m.lane && !f.scope.getLsbD 0)).map fun k =>
        s.reg k f.a.toNat))

/-! ### LSYNC (R157) -/

/-- R157, R245: release and acquire at warp scope: no data moves; earlier loads of the warp have their values first. -/
def opLsync (len : Nat) (f : X3) (s : State) : State :=
  s.issue (shapeXL len f []) fun e s =>
    if (warpsOf e.exec).any s.warpAwaits then .hold s else .done ((warpsOf e.exec).foldl State.acquire s)

/-! ### Meanings -/

/-- PARTSET, R151. -/
def execPartset (b : BitVec 3) (s : State) : Out :=
  .next (opPartset 4 { s.form32 0 0 0 with b := b.zeroExtend 8 } s)

/-- PARTSET_W, R151. -/
def execPartsetW (f : X3) (s : State) : Out :=
  .next (opPartset 8 f s)

/-- SHFL, R152. -/
def execShfl (m : Bool) (b : BitVec 7) (a : BitVec 7) (d : BitVec 7) (s : State) : Out :=
  .next (opShfl 4 { s.form32 b a d with scope := 2, rm := if m then 3 else 0 } s)

/-- SHFL_W, R152. -/
def execShflW (f : X3) (s : State) : Out :=
  .next (opShfl 8 f s)

/-- PAIRX, R153. -/
def execPairx (m : Bool) (b : BitVec 7) (a : BitVec 7) (d : BitVec 7) (s : State) : Out :=
  .next (opPairx 4 { s.form32 b a d with scope := if m then 3 else 2, ty := pick m 0 6 } s)

/-- PAIRX_W, R153. -/
def execPairxW (f : X3) (s : State) : Out :=
  .next (opPairx 8 f s)

/-- VOTE, R154. -/
def execVote (m : Bool) (a : BitVec 7) (d : BitVec 7) (s : State) : Out :=
  .next (opVote 4 { s.form32 0 a d with scope := 2, rm := if m then 1 else 0 } s)

/-- VOTE_W, R154. -/
def execVoteW (f : X3) (s : State) : Out :=
  .next (opVote 8 f s)

/-- REDUX, R156. -/
def execRedux (m : Bool) (b : BitVec 7) (a : BitVec 7) (d : BitVec 7) (s : State) : Out :=
  .next (opRedux 4 { s.form32 b a d with scope := 2, ty := pick m 0 2 } s)

/-- REDUX_W, R156. -/
def execReduxW (f : X3) (s : State) : Out :=
  .next (opRedux 8 f s)

/-- SCAN, R156. -/
def execScan (m : Bool) (b : BitVec 7) (a : BitVec 7) (d : BitVec 7) (s : State) : Out :=
  .next (opScan 4 { s.form32 b a d with scope := if m then 3 else 2 } s)

/-- SCAN_W, R156. -/
def execScanW (f : X3) (s : State) : Out :=
  .next (opScan 8 f s)

/-- MATCH, R155. -/
def execMatchL (m : Bool) (a : BitVec 7) (d : BitVec 7) (s : State) : Out :=
  .next (opMatch 4 { s.form32 0 a d with scope := if m then 3 else 2 } s)

/-- MATCH_W, R155. -/
def execMatchLW (f : X3) (s : State) : Out :=
  .next (opMatch 8 f s)

/-- LSYNC, R157. -/
def execLsync (s : State) : Out := .next (opLsync 4 { s.form32 0 0 0 with scope := 2 } s)

/-- LSYNC_W, R157. -/
def execLsyncW (f : X3) (s : State) : Out :=
  .next (opLsync 8 f s)

end Sys2Proof.Machine
end

