-- ==== Sys2Proof/Machine/FloatArith.lean ====
section
/-! DEFINITION. FP32 arithmetic and comparison, and packed BF16 and FP16 arithmetic (R113 to R123). -/

namespace Sys2Proof.Machine

open Sys2Proof

/-- A numeric result as a word. -/
def word (n : Nat) : Word := BitVec.ofNat 32 n

def opFadd (len : Nat) (f : X3) (s : State) : State := s.op2 len f fun a b => word (fAdd fp32 (x3Modes f) a.toNat b.toNat)
def opFsub (len : Nat) (f : X3) (s : State) : State := s.op2 len f fun a b => word (fSub fp32 (x3Modes f) a.toNat b.toNat)
def opFmul (len : Nat) (f : X3) (s : State) : State := s.op2 len f fun a b => word (fMul fp32 (x3Modes f) a.toNat b.toNat)
def opFfma (len : Nat) (f : X3) (s : State) : State :=
  s.op3 len f fun a b c => word (fFma fp32 (x3Modes f) a.toNat b.toNat c.toNat)
def opFmin (len : Nat) (f : X3) (s : State) : State := s.op2 len f fun a b => word (fSelect fp32 false (f.ftz == 1) a.toNat b.toNat)
def opFmax (len : Nat) (f : X3) (s : State) : State := s.op2 len f fun a b => word (fSelect fp32 true (f.ftz == 1) a.toNat b.toNat)
def opFcmp (len : Nat) (f : X3) (s : State) : State := s.op2 len f fun a b => floatOrder (fCompare (f.ftz == 1) a.toNat b.toNat)

/-- R117: the destination predicate, the condition and .u are in D. -/
def opFcmpp (len : Nat) (f : X3) (s : State) : State :=
  s.issue (shapeX3 len f [r1 f.a, r1 f.b]) fun e s =>
    .done (e.writePred s (f.d.extractLsb' 0 4).toNat fun m =>
      floatCondition (f.d.extractLsb' 4 3).toNat (f.d.getLsbD 7)
        (fCompare (f.ftz == 1) (s.reg m f.a.toNat).toNat (s.reg m f.b.toNat).toNat))

def opFrnd (len : Nat) (f : X3) (s : State) : State :=
  s.op1 len f fun a => word (fRound (Rounding.ofCode f.rm.toNat) (f.ftz == 1) a.toNat)

/-- R119: a 16-bit type reads the low half. -/
def opFclass (len : Nat) (f : X3) (s : State) : State :=
  s.op1 len f fun a => let F := Format.ofType f.ty.toNat; word (fClass F (a.toNat % 2 ^ F.bits))

def opFscale (len : Nat) (f : X3) (s : State) : State := s.op2 len f fun a b => word (fScale (x3Modes f) a.toNat b.toInt)
def opFexpn (len : Nat) (f : X3) (s : State) : State := s.op1 len f fun a => fExponent (f.ftz == 1) a.toNat
def opFmant (len : Nat) (f : X3) (s : State) : State := s.op1 len f fun a => word (fMantissa (f.ftz == 1) a.toNat)

/-- R121. -/
def copySign (neg : Bool) (a b : Word) : Word := BitVec.ofBool (b.getLsbD 31 != neg) ++ a.extractLsb' 0 31

def opFcpys (len : Nat) (f : X3) (s : State) : State := s.op2 len f (copySign (f.scope.getLsbD 0))

/-! ### Packed halves (R122, R123) -/

/-- An operation on each half of its operands. -/
def halves (g : Nat → Nat → Nat → Nat) (a b c : Word) : Word :=
  BitVec.ofNat 16 (g (a.extractLsb' 16 16).toNat (b.extractLsb' 16 16).toNat (c.extractLsb' 16 16).toNat) ++
  BitVec.ofNat 16 (g (a.extractLsb' 0 16).toNat (b.extractLsb' 0 16).toNat (c.extractLsb' 0 16).toNat)

/-- The element format of a packed instruction. -/
def halfFormat (f : X3) : Format := Format.ofType f.ty.toNat

def opHadd2 (len : Nat) (f : X3) (s : State) : State :=
  s.op2 len f fun a b => halves (fun x y _ => fAdd (halfFormat f) (x3Modes f) x y) a b 0
def opHsub2 (len : Nat) (f : X3) (s : State) : State :=
  s.op2 len f fun a b => halves (fun x y _ => fSub (halfFormat f) (x3Modes f) x y) a b 0
def opHmul2 (len : Nat) (f : X3) (s : State) : State :=
  s.op2 len f fun a b => halves (fun x y _ => fMul (halfFormat f) (x3Modes f) x y) a b 0
def opHfma2 (len : Nat) (f : X3) (s : State) : State :=
  s.op3 len f fun a b c => halves (fun x y z => fFma (halfFormat f) (x3Modes f) x y z) a b c
def opHmax2 (len : Nat) (f : X3) (s : State) : State :=
  s.op2 len f fun a b => halves (fun x y _ => fSelect (halfFormat f) true (f.ftz == 1) x y) a b 0
def opHmin2 (len : Nat) (f : X3) (s : State) : State :=
  s.op2 len f fun a b => halves (fun x y _ => fSelect (halfFormat f) false (f.ftz == 1) x y) a b 0
def opHdot2 (len : Nat) (f : X3) (s : State) : State :=
  s.op3 len f fun a b c => word (dot2 (halfFormat f) (x3Modes f) a.toNat b.toNat c.toNat)

/-! ### Meanings -/

/-- FADD_16, R63. -/
def execFadd16 (y : BitVec 5) (x : BitVec 6) (s : State) : Out :=
  .next (opFadd 2 { s.form16 y x with ty := 2 } s)

/-- FSUB_16, R63. -/
def execFsub16 (y : BitVec 5) (x : BitVec 6) (s : State) : Out :=
  .next (opFsub 2 { s.form16 y x with ty := 2 } s)

/-- FMUL_16, R63. -/
def execFmul16 (y : BitVec 5) (x : BitVec 6) (s : State) : Out :=
  .next (opFmul 2 { s.form16 y x with ty := 2 } s)

/-- FMAX_16, R63. -/
def execFmax16 (y : BitVec 5) (x : BitVec 6) (s : State) : Out :=
  .next (opFmax 2 { s.form16 y x with ty := 2 } s)

/-- FMIN_16, R63. -/
def execFmin16 (y : BitVec 5) (x : BitVec 6) (s : State) : Out :=
  .next (opFmin 2 { s.form16 y x with ty := 2 } s)

/-- HADD2_16, R63. -/
def execHadd216 (y : BitVec 5) (x : BitVec 6) (s : State) : Out :=
  .next (opHadd2 2 { s.form16 y x with ty := 6 } s)

/-- FADD, R115. -/
def execFadd (b : BitVec 7) (a : BitVec 7) (d : BitVec 7) (s : State) : Out :=
  .next (opFadd 4 { s.form32 b a d with ty := 2 } s)

/-- FADD_W, R115. -/
def execFaddW (f : X3) (s : State) : Out :=
  .next (opFadd 8 f s)

/-- FSUB, R115. -/
def execFsub (b : BitVec 7) (a : BitVec 7) (d : BitVec 7) (s : State) : Out :=
  .next (opFsub 4 { s.form32 b a d with ty := 2 } s)

/-- FSUB_W, R115. -/
def execFsubW (f : X3) (s : State) : Out :=
  .next (opFsub 8 f s)

/-- FMUL, R115. -/
def execFmul (b : BitVec 7) (a : BitVec 7) (d : BitVec 7) (s : State) : Out :=
  .next (opFmul 4 { s.form32 b a d with ty := 2 } s)

/-- FMUL_W, R115. -/
def execFmulW (f : X3) (s : State) : Out :=
  .next (opFmul 8 f s)

/-- FFMA, R115. -/
def execFfma (b : BitVec 7) (a : BitVec 7) (d : BitVec 7) (s : State) : Out :=
  .next (opFfma 4 { accumulating (s.form32 b a d) with ty := 2 } s)

/-- FFMA_W, R115. -/
def execFfmaW (f : X3) (s : State) : Out :=
  .next (opFfma 8 f s)

/-- FMIN, R116. -/
def execFmin (b : BitVec 7) (a : BitVec 7) (d : BitVec 7) (s : State) : Out :=
  .next (opFmin 4 { s.form32 b a d with ty := 2 } s)

/-- FMIN_W, R116. -/
def execFminW (f : X3) (s : State) : Out :=
  .next (opFmin 8 f s)

/-- FMAX, R116. -/
def execFmax (b : BitVec 7) (a : BitVec 7) (d : BitVec 7) (s : State) : Out :=
  .next (opFmax 4 { s.form32 b a d with ty := 2 } s)

/-- FMAX_W, R116. -/
def execFmaxW (f : X3) (s : State) : Out :=
  .next (opFmax 8 f s)

/-- FCMP, R117. -/
def execFcmp (b : BitVec 7) (a : BitVec 7) (d : BitVec 7) (s : State) : Out :=
  .next (opFcmp 4 { s.form32 b a d with ty := 2 } s)

/-- FCMP_W, R117. -/
def execFcmpW (f : X3) (s : State) : Out :=
  .next (opFcmp 8 f s)

/-- FCMPP, R117. -/
def execFcmpp (m : Bool) (b : BitVec 7) (a : BitVec 7) (d : BitVec 7) (s : State) : Out :=
  .next (opFcmpp 4 { s.form32 b a d with ty := 2, d := BitVec.ofBool m ++ d } s)

/-- FCMPP_W, R117. -/
def execFcmppW (f : X3) (s : State) : Out :=
  .next (opFcmpp 8 f s)

/-- FRND, R118. -/
def execFrnd (a : BitVec 7) (d : BitVec 7) (s : State) : Out :=
  .next (opFrnd 4 { s.form32 0 a d with ty := 2 } s)

/-- FRND_W, R118. -/
def execFrndW (f : X3) (s : State) : Out :=
  .next (opFrnd 8 f s)

/-- FCLASS, R119. -/
def execFclass (a : BitVec 7) (d : BitVec 7) (s : State) : Out :=
  .next (opFclass 4 { s.form32 0 a d with ty := 2 } s)

/-- FCLASS_W, R119. -/
def execFclassW (f : X3) (s : State) : Out :=
  .next (opFclass 8 f s)

/-- FSCALE, R120. -/
def execFscale (b : BitVec 7) (a : BitVec 7) (d : BitVec 7) (s : State) : Out :=
  .next (opFscale 4 { s.form32 b a d with ty := 2 } s)

/-- FSCALE_W, R120. -/
def execFscaleW (f : X3) (s : State) : Out :=
  .next (opFscale 8 f s)

/-- FEXPN, R120. -/
def execFexpn (a : BitVec 7) (d : BitVec 7) (s : State) : Out :=
  .next (opFexpn 4 { s.form32 0 a d with ty := 2 } s)

/-- FEXPN_W, R120. -/
def execFexpnW (f : X3) (s : State) : Out :=
  .next (opFexpn 8 f s)

/-- FMANT, R120. -/
def execFmant (a : BitVec 7) (d : BitVec 7) (s : State) : Out :=
  .next (opFmant 4 { s.form32 0 a d with ty := 2 } s)

/-- FMANT_W, R120. -/
def execFmantW (f : X3) (s : State) : Out :=
  .next (opFmant 8 f s)

/-- FCPYS, R121. -/
def execFcpys (m : Bool) (b : BitVec 7) (a : BitVec 7) (d : BitVec 7) (s : State) : Out :=
  .next (opFcpys 4 { s.form32 b a d with scope := scopeBit m } s)

/-- FCPYS_W, R121. -/
def execFcpysW (f : X3) (s : State) : Out :=
  .next (opFcpys 8 f s)

/-- HADD2, R122. -/
def execHadd2 (m : Bool) (b : BitVec 7) (a : BitVec 7) (d : BitVec 7) (s : State) : Out :=
  .next (opHadd2 4 { s.form32 b a d with ty := pick m 6 5 } s)

/-- HADD2_W, R122. -/
def execHadd2W (f : X3) (s : State) : Out :=
  .next (opHadd2 8 f s)

/-- HSUB2, R122. -/
def execHsub2 (m : Bool) (b : BitVec 7) (a : BitVec 7) (d : BitVec 7) (s : State) : Out :=
  .next (opHsub2 4 { s.form32 b a d with ty := pick m 6 5 } s)

/-- HSUB2_W, R122. -/
def execHsub2W (f : X3) (s : State) : Out :=
  .next (opHsub2 8 f s)

/-- HMUL2, R122. -/
def execHmul2 (m : Bool) (b : BitVec 7) (a : BitVec 7) (d : BitVec 7) (s : State) : Out :=
  .next (opHmul2 4 { s.form32 b a d with ty := pick m 6 5 } s)

/-- HMUL2_W, R122. -/
def execHmul2W (f : X3) (s : State) : Out :=
  .next (opHmul2 8 f s)

/-- HFMA2, R122. -/
def execHfma2 (m : Bool) (b : BitVec 7) (a : BitVec 7) (d : BitVec 7) (s : State) : Out :=
  .next (opHfma2 4 { accumulating (s.form32 b a d) with ty := pick m 6 5 } s)

/-- HFMA2_W, R122. -/
def execHfma2W (f : X3) (s : State) : Out :=
  .next (opHfma2 8 f s)

/-- HMAX2, R122. -/
def execHmax2 (m : Bool) (b : BitVec 7) (a : BitVec 7) (d : BitVec 7) (s : State) : Out :=
  .next (opHmax2 4 { s.form32 b a d with ty := pick m 6 5 } s)

/-- HMAX2_W, R122. -/
def execHmax2W (f : X3) (s : State) : Out :=
  .next (opHmax2 8 f s)

/-- HMIN2, R122. -/
def execHmin2 (m : Bool) (b : BitVec 7) (a : BitVec 7) (d : BitVec 7) (s : State) : Out :=
  .next (opHmin2 4 { s.form32 b a d with ty := pick m 6 5 } s)

/-- HMIN2_W, R122. -/
def execHmin2W (f : X3) (s : State) : Out :=
  .next (opHmin2 8 f s)

/-- HDOT2, R123. -/
def execHdot2 (m : Bool) (b : BitVec 7) (a : BitVec 7) (d : BitVec 7) (s : State) : Out :=
  .next (opHdot2 4 { accumulating (s.form32 b a d) with ty := pick m 6 5 } s)

/-- HDOT2_W, R123. -/
def execHdot2W (f : X3) (s : State) : Out :=
  .next (opHdot2 8 f s)

end Sys2Proof.Machine
end

