-- ==== Sys2Proof/Machine/HostQueues.lean ====
section
/-! DEFINITION. Page walks and the host fault queue (R330), and the notification queue (R392). -/

namespace Sys2Proof.Machine

open Sys2Proof

/-- PAGE_WALK, R330: a fresh walk replaces what a core's TLB and its cluster's hold of the page. A walk that finds no valid entry caches nothing; its
fault is raised by the access that needs it. -/
def execPageWalk (core ctx : Nat) (va : BitVec 56) (k : Access) (s : State) : Out :=
  let t : State := { s with mem := { s.mem with tlb := s.mem.tlb.filter fun e =>
    !((e.core == core || e.core == clusterTlb core) && e.ctx == ctx && e.page == va.toNat / 2 ^ e.bits) } }
  .next (t.translate core ctx va.toNat k).2

/-! ### The host fault queue -/

def accessKind (k : Access) : Nat := match k with | .read => 0 | .write => 1 | .fetch => 2

def PageFault.isFor (f : PageFault) (ctx page : Nat) (k : Access) (die : Nat) : Bool :=
  f.ctx == ctx && f.page == page && f.kind == k && f.die == die

/-- R330: the layout of an entry; none when the record it was for is no more. -/
def State.faultEntryWord (s : State) : FaultEntry → Option Nat
  | .page ctx page k die => (s.host.faults.find? fun f => f.isFor ctx page k die).map fun f =>
      accessKind k + place 16 page + place 64 ctx + place 80 die + place 96 f.seq.toNat + place 128 Code.pageFault.toNat + place 144 f.engine
  | .ended ctx code cause die page =>
      let p := if code = Code.pageFault ∨ code = Code.protect then page else 0
      some (3 + place 16 p + place 64 ctx + place 80 die + place 82 cause + place 128 code.toNat)

/-- FAULT_QUEUE_POST, R330: the oldest entry not yet posted, while the queue has room. -/
def execFaultQueuePost (s : State) : Out :=
  match s.host.faultEntries with
  | [] => .next s
  | x :: rest =>
    let dropped : State := { s with host := { s.host with faultEntries := rest } }
    match s.faultEntryWord x with
    | none => .next dropped
    | some v =>
      let n := s.host.fqNext
      let cnt := s.sys.fqcnt.toNat
      if cnt ≤ (n - s.host.fqCons).toNat then .next s
      else match dropped.deviceWrite packageUse (s.localise (s.sys.fqbase.toNat + 32 * (n.toNat % cnt))) 32 v with
      | (none, t) => .next { t with host := { t.host with faultEntries := s.host.faultEntries } }
      | (some t, _) =>
        let mark (f : PageFault) : PageFault := match x with
          | .page ctx page k die => if f.isFor ctx page k die then { f with posted := some n } else f
          | .ended .. => f
        .next { t with host := ({ t.host with fqNext := n + 1, faults := t.host.faults.map mark } : HostSide).interrupt 0 }

/-- FAULT_QUEUE_CONSUMER_INDEX, R330. -/
def execFaultQueueConsumerIndex (v : BitVec 32) (s : State) : Out := .next { s with host := { s.host with fqCons := v } }

/-- REPLAY_DOORBELL, R330: the record whose entry has that index is serviced; what waited on it is tried again, by fresh walks. -/
def execReplayDoorbell (v : BitVec 32) (s : State) : Out :=
  let cnt := s.sys.fqcnt.toNat
  let hit (f : PageFault) : Bool := match f.posted with | some n => n.toNat % cnt == v.toNat % cnt | none => false
  let serviced := s.host.faults.filter hit
  .next ({ s with
    host := { s.host with faults := s.host.faults.filter fun f => !hit f }
    engines := s.engines.map fun (k, q) =>
      (k, { q with tasks := q.tasks.map fun t => { t with stalled := t.stalled && !(serviced.any fun f => f.ctx == t.ctx) } }) } : State).answerDoorbells

/-! ### The notification queue -/

/-- R392: the layout of an entry. -/
def Notice.entry (n : Notice) (seq : BitVec 32) : Nat :=
  n.type.toNat + place 8 (seq.toNat % 2 ^ 24) + place 32 n.ctx + place 48 n.count.toNat + place 64 n.addr.toNat + place 128 n.dst.toNat +
  place 192 n.status.toNat

/-- NOTIFICATION_POST, R392. -/
def execNotificationPost (s : State) : Out :=
  match s.host.notices with
  | [] => .next s
  | x :: _ =>
    let n := s.host.hpnNext
    let cnt := s.sys.hpncnt.toNat
    if cnt ≤ (n - s.host.hpnCons).toNat then .next s
    else match s.deviceWrite packageUse (s.localise (s.sys.hpnbase.toNat + 32 * (n.toNat % cnt))) 32 (x.entry n) with
    | (none, t) => .next t
    | (some t, _) => .next { t with host := ({ t.host with hpnNext := n + 1, notices := t.host.notices.drop 1 } : HostSide).interrupt 1 }

/-- HPNCONS_WRITE, R392. -/
def execHpnconsWrite (v : BitVec 32) (s : State) : Out := .next { s with host := { s.host with hpnCons := v } }

end Sys2Proof.Machine
end

