-- ==== Sys2Proof/Machine/Integer.lean ====
section
/-! DEFINITION. Integer arithmetic (R87, R90 to R93, R78). -/

namespace Sys2Proof.Machine

open Sys2Proof

/-- R90: an operand as its type reads it: .n32 unsigned, else signed. -/
def typed (ty : BitVec 4) (x : Word) : Int := if ty = 1#4 then (x.toNat : Int) else x.toInt

/-- R91. -/
def intResult (f : X3) (x : Int) : Word :=
  if f.ovf = 1#2 then
    (if f.ty = 1#4 then BitVec.ofInt 32 (clampInt x 0 (2 ^ 32 - 1)) else BitVec.ofInt 32 (clampInt x (-2 ^ 31) (2 ^ 31 - 1)))
  else BitVec.ofInt 32 x

def opIadd (len : Nat) (f : X3) (s : State) : State := s.op2 len f fun a b => intResult f (typed f.ty a + typed f.ty b)
def opIsub (len : Nat) (f : X3) (s : State) : State := s.op2 len f fun a b => intResult f (typed f.ty a - typed f.ty b)
def opImul (len : Nat) (f : X3) (s : State) : State := s.op2 len f fun a b => intResult f (typed f.ty a * typed f.ty b)
def opImad (len : Nat) (f : X3) (s : State) : State :=
  s.op3 len f fun a b c => intResult f (typed f.ty a * typed f.ty b + typed f.ty c)
def opIneg (len : Nat) (f : X3) (s : State) : State := s.op1 len f fun a => intResult f (-a.toInt)
def opIabs (len : Nat) (f : X3) (s : State) : State := s.op1 len f fun a => intResult f a.toInt.natAbs
def opImin (len : Nat) (f : X3) (s : State) : State := s.op2 len f fun a b => if typed f.ty a ≤ typed f.ty b then a else b
def opImax (len : Nat) (f : X3) (s : State) : State := s.op2 len f fun a b => if typed f.ty b ≤ typed f.ty a then a else b
def opImulh (len : Nat) (f : X3) (s : State) : State :=
  s.op2 len f fun a b => BitVec.ofInt 32 (typed f.ty a * typed f.ty b / 2 ^ 32)

/-- R90: IMADW; the c pair is added as a 64-bit value. -/
def opImadw (len : Nat) (f : X3) (s : State) : State :=
  s.issue { shapeX3 len f [r2 f.d, r1 f.a, r1 f.b, r2 f.c] with cycles := 2 } fun e s =>
    .done (e.writePair s f.d.toNat fun m =>
      BitVec.ofInt 64 (typed f.ty (s.reg m f.a.toNat) * typed f.ty (s.reg m f.b.toNat)) + s.pair m f.c.toNat)

/-- R92: the carry predicate in; `pt` gives no carry. -/
def State.carryIn (s : State) (m : Member) (c : BitVec 8) : Bool := if c = 15#8 then false else s.pred m c.toNat

/-- R92: a sum or difference with its carry out. -/
def opCarry (len : Nat) (f : X3) (g : Word → Word → Bool → Word × Bool) (s : State) : State :=
  s.issue (shapeX3 len f [r1 f.d, r1 f.a, r1 f.b]) fun e s =>
    let r : Member → Word × Bool := fun m => g (s.reg m f.a.toNat) (s.reg m f.b.toNat) (s.carryIn m f.c)
    let t := e.write s f.d.toNat fun m => (r m).1
    .done (if f.c = 15#8 then t else e.writePred t f.c.toNat fun m => (r m).2)

def opIaddc (len : Nat) (f : X3) (s : State) : State := opCarry len f addCarry s
def opIsubb (len : Nat) (f : X3) (s : State) : State := opCarry len f subBorrow s

/-- R93: how many of the bits of a word satisfy a test, and the position of its first 1 bit from either end. -/
def bitCount (a : Word) : Nat := ((List.range 32).filter fun i => a.getLsbD i).length
def trailingZeros (a : Word) : Nat := ((List.range 32).find? fun i => a.getLsbD i).getD 32
def leadingZeros (a : Word) : Nat := ((List.range 32).find? fun i => a.getLsbD (31 - i)).getD 32
def bitReverse (a : Word) : Word := (List.range 32).foldl (fun r i => if a.getLsbD (31 - i) then r ||| BitVec.twoPow 32 i else r) 0

def opPopc (len : Nat) (f : X3) (s : State) : State := s.op1 len f fun a => BitVec.ofNat 32 (bitCount a)
def opClz (len : Nat) (f : X3) (s : State) : State := s.op1 len f fun a => BitVec.ofNat 32 (leadingZeros a)
def opCtz (len : Nat) (f : X3) (s : State) : State := s.op1 len f fun a => BitVec.ofNat 32 (trailingZeros a)
def opBrev (len : Nat) (f : X3) (s : State) : State := s.op1 len f bitReverse

/-! ### Immediate forms (R78): the type is .i32 and nothing saturates -/

def opIaddImm (len : Nat) (f : XI) (s : State) : State := s.opImm len f fun a b => a + b
def opIsubImm (len : Nat) (f : XI) (s : State) : State := s.opImm len f fun a b => a - b
def opImulImm (len : Nat) (f : XI) (s : State) : State := s.opImm len f fun a b => a * b
def opIminImm (len : Nat) (f : XI) (s : State) : State := s.opImm len f fun a b => if a.sle b then a else b
def opImaxImm (len : Nat) (f : XI) (s : State) : State := s.opImm len f fun a b => if b.sle a then a else b

/-! ### Meanings -/

/-- IADD_16, R63. -/
def execIadd16 (y : BitVec 5) (x : BitVec 6) (s : State) : Out :=
  .next (opIadd 2 (s.form16 y x) s)

/-- ISUB_16, R63. -/
def execIsub16 (y : BitVec 5) (x : BitVec 6) (s : State) : Out :=
  .next (opIsub 2 (s.form16 y x) s)

/-- IMUL_16, R63. -/
def execImul16 (y : BitVec 5) (x : BitVec 6) (s : State) : Out :=
  .next (opImul 2 (s.form16 y x) s)

/-- IADD, R90. -/
def execIadd (b : BitVec 7) (a : BitVec 7) (d : BitVec 7) (s : State) : Out :=
  .next (opIadd 4 (s.form32 b a d) s)

/-- IADD_W, R90. -/
def execIaddW (f : X3) (s : State) : Out :=
  .next (opIadd 8 f s)

/-- ISUB, R90. -/
def execIsub (b : BitVec 7) (a : BitVec 7) (d : BitVec 7) (s : State) : Out :=
  .next (opIsub 4 (s.form32 b a d) s)

/-- ISUB_W, R90. -/
def execIsubW (f : X3) (s : State) : Out :=
  .next (opIsub 8 f s)

/-- IADDC, R92. -/
def execIaddc (b : BitVec 7) (a : BitVec 7) (d : BitVec 7) (s : State) : Out :=
  .next (opIaddc 4 (s.form32 b a d) s)

/-- IADDC_W, R92. -/
def execIaddcW (f : X3) (s : State) : Out :=
  .next (opIaddc 8 f s)

/-- ISUBB, R92. -/
def execIsubb (b : BitVec 7) (a : BitVec 7) (d : BitVec 7) (s : State) : Out :=
  .next (opIsubb 4 (s.form32 b a d) s)

/-- ISUBB_W, R92. -/
def execIsubbW (f : X3) (s : State) : Out :=
  .next (opIsubb 8 f s)

/-- IMUL, R90. -/
def execImul (b : BitVec 7) (a : BitVec 7) (d : BitVec 7) (s : State) : Out :=
  .next (opImul 4 (s.form32 b a d) s)

/-- IMUL_W, R90. -/
def execImulW (f : X3) (s : State) : Out :=
  .next (opImul 8 f s)

/-- IMULH, R90. -/
def execImulh (m : Bool) (b : BitVec 7) (a : BitVec 7) (d : BitVec 7) (s : State) : Out :=
  .next (opImulh 4 { s.form32 b a d with ty := pick m 0 1 } s)

/-- IMULH_W, R90. -/
def execImulhW (f : X3) (s : State) : Out :=
  .next (opImulh 8 f s)

/-- IMAD, R90. -/
def execImad (b : BitVec 7) (a : BitVec 7) (d : BitVec 7) (s : State) : Out :=
  .next (opImad 4 (accumulating (s.form32 b a d)) s)

/-- IMAD_W, R90. -/
def execImadW (f : X3) (s : State) : Out :=
  .next (opImad 8 f s)

/-- IMADW, R90. -/
def execImadw (m : Bool) (b : BitVec 7) (a : BitVec 7) (d : BitVec 7) (s : State) : Out :=
  .next (opImadw 4 { accumulating (s.form32 b a d) with ty := pick m 0 1 } s)

/-- IMADW_W, R90. -/
def execImadwW (f : X3) (s : State) : Out :=
  .next (opImadw 8 f s)

/-- INEG, R90. -/
def execIneg (a : BitVec 7) (d : BitVec 7) (s : State) : Out :=
  .next (opIneg 4 (s.form32 0 a d) s)

/-- INEG_W, R90. -/
def execInegW (f : X3) (s : State) : Out :=
  .next (opIneg 8 f s)

/-- IABS, R90. -/
def execIabs (a : BitVec 7) (d : BitVec 7) (s : State) : Out :=
  .next (opIabs 4 (s.form32 0 a d) s)

/-- IABS_W, R90. -/
def execIabsW (f : X3) (s : State) : Out :=
  .next (opIabs 8 f s)

/-- IMIN, R90. -/
def execImin (m : Bool) (b : BitVec 7) (a : BitVec 7) (d : BitVec 7) (s : State) : Out :=
  .next (opImin 4 { s.form32 b a d with ty := pick m 0 1 } s)

/-- IMIN_W, R90. -/
def execIminW (f : X3) (s : State) : Out :=
  .next (opImin 8 f s)

/-- IMAX, R90. -/
def execImax (m : Bool) (b : BitVec 7) (a : BitVec 7) (d : BitVec 7) (s : State) : Out :=
  .next (opImax 4 { s.form32 b a d with ty := pick m 0 1 } s)

/-- IMAX_W, R90. -/
def execImaxW (f : X3) (s : State) : Out :=
  .next (opImax 8 f s)

/-- POPC, R93. -/
def execPopc (a : BitVec 7) (d : BitVec 7) (s : State) : Out :=
  .next (opPopc 4 (s.form32 0 a d) s)

/-- POPC_W, R93. -/
def execPopcW (f : X3) (s : State) : Out :=
  .next (opPopc 8 f s)

/-- CLZ, R93. -/
def execClz (a : BitVec 7) (d : BitVec 7) (s : State) : Out :=
  .next (opClz 4 (s.form32 0 a d) s)

/-- CLZ_W, R93. -/
def execClzW (f : X3) (s : State) : Out :=
  .next (opClz 8 f s)

/-- CTZ, R93. -/
def execCtz (a : BitVec 7) (d : BitVec 7) (s : State) : Out :=
  .next (opCtz 4 (s.form32 0 a d) s)

/-- CTZ_W, R93. -/
def execCtzW (f : X3) (s : State) : Out :=
  .next (opCtz 8 f s)

/-- BREV, R93. -/
def execBrev (a : BitVec 7) (d : BitVec 7) (s : State) : Out :=
  .next (opBrev 4 (s.form32 0 a d) s)

/-- BREV_W, R93. -/
def execBrevW (f : X3) (s : State) : Out :=
  .next (opBrev 8 f s)

/-- IADD_IMM, R78. -/
def execIaddImm (i : BitVec 7) (a : BitVec 7) (d : BitVec 7) (s : State) : Out :=
  .next (opIaddImm 4 (s.imm32 i a d) s)

/-- IADD_IMM_W, R78. -/
def execIaddImmW (f : XI) (s : State) : Out :=
  .next (opIaddImm 8 f s)

/-- ISUB_IMM, R78. -/
def execIsubImm (i : BitVec 7) (a : BitVec 7) (d : BitVec 7) (s : State) : Out :=
  .next (opIsubImm 4 (s.imm32 i a d) s)

/-- ISUB_IMM_W, R78. -/
def execIsubImmW (f : XI) (s : State) : Out :=
  .next (opIsubImm 8 f s)

/-- IMUL_IMM, R78. -/
def execImulImm (i : BitVec 7) (a : BitVec 7) (d : BitVec 7) (s : State) : Out :=
  .next (opImulImm 4 (s.imm32 i a d) s)

/-- IMUL_IMM_W, R78. -/
def execImulImmW (f : XI) (s : State) : Out :=
  .next (opImulImm 8 f s)

/-- IMIN_IMM, R78. -/
def execIminImm (i : BitVec 7) (a : BitVec 7) (d : BitVec 7) (s : State) : Out :=
  .next (opIminImm 4 (s.imm32 i a d) s)

/-- IMIN_IMM_W, R78. -/
def execIminImmW (f : XI) (s : State) : Out :=
  .next (opIminImm 8 f s)

/-- IMAX_IMM, R78. -/
def execImaxImm (i : BitVec 7) (a : BitVec 7) (d : BitVec 7) (s : State) : Out :=
  .next (opImaxImm 4 (s.imm32 i a d) s)

/-- IMAX_IMM_W, R78. -/
def execImaxImmW (f : XI) (s : State) : Out :=
  .next (opImaxImm 8 f s)

end Sys2Proof.Machine
end

