-- ==== Sys2Proof/Machine/Issue.lean ====
section
/-! DEFINITION. Readiness (R138), the members of cross-lane, PARTSET, MODE and matrix runs (R147, R148, R161, R163, R164),
groups and continuations (R139, R144), arbitration (R143), the end of SLEEP (R110) and the release of a warp (R109, R210). -/

namespace Sys2Proof.Machine

open Sys2Proof

/-! ### Where threads stand -/

/-- R144, R322: where a thread stands: PC, run position, and the header of a run already begun (zero at a run header). -/
structure Stand where
  pc : VAddr
  pos : BitVec 5
  hdr : Word
  deriving DecidableEq, Repr

def Thread.stand (t : Thread) : Stand := ⟨t.pc, t.pos, t.rhdr⟩

/-- What stands at a place: a run or the rest of one, with its header, or none. -/
inductive Lead where
  | run (h : Word)
  | fault (code : BitVec 16) (addr : VAddr)
  /-- R330 -/
  | page (page : Nat)
  deriving DecidableEq, Repr

/-- R25, R27: the run header at a place. Where no header stands, a thread that fell through to it takes BADTARGET there; one that
came another way came by a target that had one, and takes the ILLEGAL of at_run (log entry 39). -/
def State.leadAt (s : State) (core ctx : Nat) (fell : Bool) (x : Stand) : Lead :=
  if x.hdr ≠ 0 then .run x.hdr
  else match s.fetchHeader core ctx x.pc.toNat with
    | .word h =>
      if validHeader (h.extractLsb' 0 32) then .run (h.extractLsb' 0 32)
      else .fault (if fell then Code.badTarget else Code.illegal) x.pc
    | .fault c => .fault c x.pc
    | .replay p => .page p

/-- The first instruction a group that begins at a place executes. -/
def Stand.first (x : Stand) : VAddr := if x.hdr = 0 then x.pc + 4 else x.pc

/-- What the first instruction of a run asks of the threads of its warp. -/
inductive Meeting where
  | free
  /-- R147: a cross-lane instruction: the register of its mask, or all lanes -/
  | masked (reg : Option Nat)
  /-- R148: PARTSET: every lane that was ever occupied -/
  | occupied
  /-- R161: MODE: every live thread; `leave` for MODE.V -/
  | live (leave : Bool)
  /-- R164: all 32 threads -/
  | matrix
  deriving DecidableEq, Repr

/-- R74, R147, R148, R161, R164: the meeting that the instruction at a place asks for. It goes by the opcode: an encoding that R79
refuses is a meeting too, and its ILLEGAL is raised once the members have met (DESIGN CHOICE, log entry 101). A mask register
that the warp does not have names no members: the instruction raises ILLEGAL (R10). -/
def State.meetingAt (s : State) (ctx : Nat) (w : Warp) (x : Stand) : Meeting :=
  if x.pos ≠ 0 then .free
  else match s.fetchInstr w.core ctx x.first.toNat with
    | .word v =>
      match opcodeOf v with
      | some o =>
        let long := lengthOf (v.extractLsb' 0 16) == 8
        let f := X3.ofWord v
        if 0x90 ≤ o ∧ o ≤ 0x96 then
          if long && !f.scope.getLsbD 1 then (if f.c.toNat < w.alloc then .masked (some f.c.toNat) else .free) else .masked none
        else if o = 0x0C then .occupied
        else if o = 0x0D then .live (if long then !f.b.getLsbD 0 else !v.getLsbD 24)
        else if w.mmode && decide (0x100 ≤ o) && decide (o ≤ 0x107) then .matrix
        else .free
      | none => .free
    | _ => .free

/-- A thread that may take a run, with what stands where it stands. -/
structure Stander where
  m : Member
  t : Thread
  x : Stand
  lead : Lead
  meeting : Meeting
  deriving DecidableEq, Repr

/-- R324: every live thread has executed PREACK. -/
def Warp.acknowledged (w : Warp) : Bool :=
  w.level == 1 && w.frameKind == 1 && w.threads.any (fun (_, t) => t.live) && w.threads.all fun (_, t) => !t.live || t.acked

/-- R138, R314, R323, R325, R353: no trap, save or watch is to come before the warp's next run. -/
def State.mayRun (s : State) (wid : Nat) (w : Warp) : Bool :=
  w.resident && w.trap.isNone && !w.graceOver && !s.ctxEnded (s.ctxOf wid) &&
  !(w.level == 0 && (!w.engineWatches.isEmpty || (w.preempt && s.recField wid 375 320 != 0)))

/-- The threads of a warp that stand at a run or inside one, with the slot free, in ascending lane order. -/
def State.standers (s : State) (wid : Nat) (w : Warp) : List Stander :=
  (w.threads.filter fun (_, t) => t.status = .running).map fun (l, t) =>
    let ctx := s.ctxOf wid
    let lead := s.leadAt w.core ctx t.fell t.stand
    let meeting := match lead with | .run _ => s.meetingAt ctx w t.stand | _ => .free
    ⟨⟨wid, l⟩, t, t.stand, lead, meeting⟩

/-- The flags that hold a thread back: its WAITF mask, and the WAIT field of a run not yet begun. -/
def Stander.waitMask (a : Stander) : BitVec 12 :=
  a.t.wmask ||| (match a.lead with | .run h => if a.x.pos = 0 then hdrWait h else 0 | _ => 0)

/-- R324: a PREACK of the whole warp holds the thread at its next run header. -/
def Stander.leaves (a : Stander) (w : Warp) : Bool := w.acknowledged && a.x.hdr == 0

/-- R18, R110, R324: neither flags, nor SLEEP, nor a PREACK of the whole warp holds the thread back. -/
def Stander.unheld (a : Stander) (s : State) (w : Warp) : Bool :=
  decide (a.t.notBefore ≤ s.now) && w.flagsZero a.waitMask && !a.leaves w

/-! ### Membership and convergence (R147, R148, R164) -/

def Stander.mask (a : Stander) (s : State) (w : Warp) : BitVec 32 :=
  match a.meeting with
  | .free => BitVec.twoPow 32 a.m.lane
  | .masked (some r) => s.reg a.m r
  | .masked none => BitVec.allOnes 32
  | .occupied => maskOf (w.threads.map (·.1))
  | .live _ => w.liveMask
  | .matrix => BitVec.allOnes 32

/-- R147: a thread whose mask has a result pending does not yet stand at the run. -/
def Stander.written (a : Stander) (s : State) : Bool :=
  match a.meeting with
  | .masked (some r) => !s.pending a.m r
  | _ => true

/-- R163. -/
def State.productsOpen (s : State) (wid : Nat) (w : Warp) : Bool :=
  !w.suspended.isEmpty || (s.quarter w.quarterOf).fabric.any fun p => p.wid == wid

inductive Convergence where
  | ready (l : List Stander)
  | wait
  | fault (code : BitVec 16) (l : List Stander)
  deriving DecidableEq, Repr

/-- R148: every thread that a standing thread's mask names stands there with the same mask. -/
def State.gathered (s : State) (w : Warp) (l : List Stander) (a : Stander) : Bool :=
  let mask := a.mask s w
  (lanesOf mask).all fun k => l.any fun b => b.m.lane == k && b.x == a.x && b.written s && b.mask s w == mask

/-- R148, R164: whether a thread may begin its run, and with which threads of its warp. A thread whose own meeting is complete does
not wait there for another. The faults are judged of the threads that stand there, held by flags or SLEEP or not. -/
def State.converge (s : State) (w : Warp) (l : List Stander) (a : Stander) : Convergence :=
  if a.meeting = .free then (if a.unheld s w then .ready [a] else .wait)
  else if a.leaves w || !a.written s then .wait
  else
    let here := l.filter fun b => b.x = a.x && b.written s
    let mask := a.mask s w
    let masks := here.map fun b => b.mask s w
    if here.any fun b => !(b.mask s w).getLsbD b.m.lane then .fault Code.xlMask here
    else if masks.any fun x => masks.any fun y => x != y && (x &&& y) != 0 then .fault Code.xlMask here
    else if masks.any fun x => (x &&& ~~~w.liveMask) != 0 then .fault Code.xlExit here
    else
      let mine := here.filter fun b => b.mask s w == mask
      let leaving := decide (a.meeting = .live true) && s.productsOpen a.m.wid w
      if (lanesOf mask).all (fun k => mine.any fun b => b.m.lane == k) && mine.all (fun b => b.unheld s w) then
        if leaving then .wait else .ready mine
      else
        let named := l.filter fun b => mask.getLsbD b.m.lane && b.meeting != .free && b.written s
        if (lanesOf (mask &&& w.liveMask)).all (fun k => named.any fun b => b.m.lane == k) && named.any (fun b => b.x != a.x) &&
            named.all (fun b => !s.gathered w l b) then
          .fault Code.xlSync named
        else .wait

/-! ### Beginning a run -/

/-- R27, R138: the thread takes the run or goes on with it. -/
def Stander.begin (a : Stander) (h : Word) (t : Thread) : Thread :=
  { t with pc := a.x.first, rhdr := h, runAt := if a.x.hdr = 0 then a.x.pc else t.runAt, fell := false, yielded := false, wmask := 0,
           readyAt := none }

/-- The threads of a list begin their runs; their warps observe the flags waited for (R268). -/
def State.beginRuns (s : State) (l : List Stander) : State :=
  l.foldl (fun t a => match a.lead with
    | .run h => (t.modWarp a.m.wid fun w => w.observeFlags a.waitMask).modThread a.m (a.begin h)
    | _ => t) s

/-- R148: a fault of threads that wait at runs, raised at the first instruction of each. -/
def State.raiseMeeting (s : State) (q : Nat) (code : BitVec 16) (l : List Stander) : State :=
  let ms := l.map (·.m)
  (s.beginRuns l).raise q ms (allCauses ms code 0) 0

/-- R341: a run begins, to issue in the next cycle; one run in 2^RSAMP is recorded. -/
def State.sampleRun (s : State) (core q seed : Nat) (x : VAddr) (n : Nat) : State :=
  let rsamp := s.recField seed 483 480
  let r := s.recorder core
  if rsamp = 15 then s
  else
    let s1 := s.putRecorder core { r with runs := r.runs + 1 }
    if sampled rsamp r.runs then
      let s2 := s1.recordWarpLater seed 0x02 (x.toNat + place 56 n)
      let r2 := s2.recorder core
      s2.putRecorder core { r2 with branch := r2.branch ++ [q % 4] }
    else s1

/-! ### Arbitration (R139, R143) -/

/-- A ready thread with the threads of its warp that begin with it, its warp slot and its age. -/
structure Ready where
  a : Stander
  group : List Stander
  slot : Nat
  age : Nat
  deriving DecidableEq, Repr

/-- The warps of a quarter that may take a run, by warp slot. -/
def State.quarterWarps (s : State) (q : Nat) : List (Nat × Warp) :=
  let l := s.warps.filter fun (i, w) => w.quarterOf == q && s.mayRun i w
  (List.range 16).flatMap fun k => l.filter fun (_, w) => w.slot == k

/-- Every ready thread of a quarter, by warp slot and lane; and the faults of R148. -/
def State.readyIn (s : State) (q : Nat) : List Ready × List (BitVec 16 × List Stander) :=
  (s.quarterWarps q).foldl (fun (r, f) (i, w) =>
    let l := s.standers i w
    l.foldl (fun (r, f) a => match s.converge w l a with
      | .ready g => (r ++ [⟨a, g, w.slot, match a.t.readyAt with | some k => s.now - k | none => 0⟩], f)
      | .wait => (r, f)
      | .fault c g => (r, f ++ [(c, g)])) (r, f)) ([], [])

/-- The first of a list whose key lies at or after a pointer, cyclically. -/
def firstFrom (key : Ready → Nat) (p : Nat) (l : List Ready) : Option Ready :=
  match l.find? fun r => decide (p ≤ key r) with
  | some r => some r
  | none => l.head?

/-- R143: the seed. -/
def seedOf (wp : Nat) (lp : Tab Nat) (l : List Ready) : Option Ready :=
  let old := l.filter fun r => decide (4096 < r.age)
  match old with
  | x :: rest => some (rest.foldl (fun b r => if b.age < r.age then r else b) x)
  | [] =>
    match firstFrom (·.slot) wp l with
    | none => none
    | some r => firstFrom (fun r => r.a.m.lane) (Tab.getD lp r.slot 0) (l.filter fun y => y.slot == r.slot)

/-- R139, R144: the group that forms from a seed, in ascending lane order. -/
def State.formGroup (s : State) (l : List Ready) (r : Ready) : List Stander :=
  match s.warp? r.a.m.wid with
  | none => []
  | some w =>
    if r.a.meeting ≠ .free then r.group
    else if w.mmode then (l.filter fun y => y.a.m.wid == r.a.m.wid && decide (y.a.x = r.a.x)).map (·.a)
    else
      let joins : Ready → Bool := fun y =>
        decide (y.a.x = r.a.x) &&
        (match s.warp? y.a.m.wid with | some v => v.block == w.block && !v.mmode && v.part == w.part | none => false)
      (List.range 32).filterMap fun k =>
        if k = r.a.m.lane then some r.a
        else
          let c := l.filter fun y => y.a.m.lane == k && joins y
          match c.find? fun y => y.a.m.wid == r.a.m.wid with
          | some y => some y.a
          | none => c.head?.map (·.a)

/-- R110: a YIELD holds a thread back from one arbitration at which it could be chosen. -/
def State.endYields (s : State) (q : Nat) : State :=
  { s with warps := s.warps.map fun (i, w) => (i,
      if w.resident && w.quarterOf == q then
        { w with threads := w.threads.map fun (k, t) => (k, { t with yielded := t.yielded && decide (s.now < t.notBefore) }) }
      else w) }

/-- R143: the cycle from which a thread of a list is ready, first looked at in a cycle. -/
def Ready.since (r : Ready) (cycle : Nat) : Nat := r.group.foldl (fun c b => max c b.t.notBefore) cycle

/-- R138, R143: the threads that do not hold a slot are marked as ready from the cycle in which they became so, or as not ready. -/
def State.noteReady (s : State) (cycle : Nat) : State :=
  let ready := (distinct ((s.warps.filter fun x => x.2.resident).map fun x => x.2.quarterOf)).flatMap fun q => (s.readyIn q).1
  { s with warps := s.warps.map fun (i, w) => (i,
      { w with threads := w.threads.map fun (k, t) => (k,
          if (s.quarter w.quarterOf).slot.any fun g => g.members.contains ⟨i, k⟩ then t
          else { t with readyAt := (ready.find? fun r => r.a.m == ⟨i, k⟩).map fun r => t.readyAt.getD (r.since cycle) }) }) }

/-- R143: the pointers after a seed and its group have been chosen. -/
def State.movePointers (s : State) (q : Nat) (r : Ready) (g : List Stander) : State :=
  s.modQuarter q fun x => { x with
    wp := (r.slot + 1) % 16
    lp := Tab.set 0 x.lp r.slot (((g.filter fun b => b.m.wid == r.a.m.wid).foldl (fun k b => max k b.m.lane) 0 + 1) % 32) }

/-- The group takes the slot, or what stands in its way comes about. -/
def State.take (s : State) (q : Nat) (r : Ready) (g : List Stander) : State :=
  let ms := g.map (·.m)
  let s := s.movePointers q r g
  match r.a.lead with
  | .run _ =>
    let s1 := (s.beginRuns g).modQuarter q fun x => { x with slot := some ⟨ms, r.a.m.wid⟩ }
    if r.a.x.hdr = 0 then s1.sampleRun (coreOfQuarter q) q r.a.m.wid (r.a.x.first - 4) g.length else s1
  | .fault c a => s.raise q ms (g.map fun b => (b.m, ⟨match b.lead with | .fault k _ => k | _ => c, a.zeroExtend 64⟩)) 0
  | .page p =>
    let e : Env := { q := q, group := ⟨ms, r.a.m.wid⟩, hdr := 0, pos := 0, pc := r.a.x.pc.toNat, len := 0, guard := 15, sense := 0, exec := ms }
    s.pageWait e [(.replay (s.ctxOf r.a.m.wid) p .fetch (dieOf (coreOfQuarter q)), ms.length)]

/-- R331: the first warp of a quarter with threads that take a cause before they issue again, and those causes. -/
def State.owedIn (s : State) (q : Nat) : List Cause :=
  ((s.quarterWarps q).map fun (i, w) => w.threads.filterMap fun (k, t) =>
    if t.status = .running then t.owed.map fun c => ((⟨i, k⟩ : Member), c) else none).find? (fun l => !l.isEmpty) |>.getD []

/-- R331, R143: an arbitration of a quarter whose slot is free. -/
def State.arbitrate (s : State) (q : Nat) : State :=
  if (s.quarter q).slot.isSome then s
  else match s.owedIn q with
  | c :: l => (s.modMembers ((c :: l).map (·.1)) fun t => { t with owed := none }).raise q ((c :: l).map (·.1)) (c :: l) 0
  | [] =>
    let (ready, faults) := s.readyIn q
    match faults with
    | (c, l) :: _ => s.raiseMeeting q c l
    | [] =>
      let awake := ready.filter fun r => r.group.all fun b => !b.t.yielded
      let l := if awake.isEmpty then ready else awake
      let s1 := s.endYields q
      match seedOf (s.quarter q).wp (s.quarter q).lp l with
      | none => s1
      | some r => s1.take q r (s.formGroup l r)

/-- ARBITRATE, R143. -/
def execArbitrate (q : Nat) (s : State) : Out := .next (s.arbitrate q)

/-- SLEEP_EXPIRY, R110: the cycle of issue + N has come. -/
def execSleepExpiry (wid lane : Nat) (s : State) : Out :=
  .next (s.modThread ⟨wid, lane⟩ fun t => if t.notBefore ≤ s.now then { t with notBefore := 0 } else t)

/-! ### The end of a warp and of a block (R109, R210, R215, R318) -/

/-- R353: the queues that a warp which leaves its core without taking their WATCH had stopped. -/
def State.restartQueues (s : State) (wid : Nat) : State :=
  match s.warp? wid with
  | none => s
  | some w =>
    (w.engineWatches.foldl (fun (t : State) (eng, c, _) => t.modEngine (queueKey eng c) fun q => { q with stopped := false }) s).modWarp wid
      fun w => { w with engineWatches := [] }

/-- R353: the queue whose WATCH frame a warp has taken restarts once no thread of it is left to return. -/
def State.restartTaken (s : State) (wid : Nat) : State :=
  match (s.warp? wid).bind (·.watchQueue) with
  | some (eng, c) => (s.modEngine (queueKey eng c) fun q => { q with stopped := false }).modWarp wid fun w => { w with watchQueue := none }
  | none => s

/-- R109, R301, R324: a warp leaves its slot and registers; its products and results are none. -/
def State.leaveCore (s : State) (wid : Nat) (r : Residence) : State := (s.restartQueues wid).modWarp wid fun w => { w with residence := r }

/-- R318: a freed save slot of a warp or block. -/
def State.freeSaveSlots (s : State) (q : Nat) (warp block : List Nat) : State :=
  s.modQueue q fun x => { x with
    warpSlots := x.warpSlots.filter fun k => !warp.contains k
    blockSlots := x.blockSlots.filter fun k => !block.contains k }

/-- R210, R215: a block whose warps are all released leaves its core once no engine command of it is left. -/
def State.tryDepart (s : State) (bid : Nat) : State :=
  match s.block? bid with
  | none => s
  | some b =>
    match s.launch? b.launch with
    | none => s
    | some l =>
      if !b.departed && b.warps.all (fun i => (s.warp? i).all fun w => w.residence = .released) && s.allTasks.all (fun (_, t) => t.block != bid) then
        let s1 := s.releaseRegions l.ctx fun r => r.block == bid && decide (scratchBase ≤ r.base.toNat)
        let s2 := s1.freeSaveSlots l.queue [] [b.saveSlot]
        let s3 := s2.modBlock bid fun x => { x with departed := true }
        let s4 := s3.modLaunch b.launch fun x => { x with exitedBlocks := x.exitedBlocks + 1 }
        { s4 with warps := s4.warps.filter fun (i, _) => !b.warps.contains i }
      else s

/-- R332: a warp of an ended context, stopped where it stands, of which no issued instruction is left to complete. A load on an
absent line may wait for ever and holds nothing up. -/
def State.endedQuiet (s : State) (wid : Nat) (w : Warp) : Bool :=
  s.ctxEnded (s.ctxOf wid) && s.drained wid w && (s.quarter w.quarterOf).sfu.all fun x => (x.waiting ++ x.served).all fun l => l.wid != wid

/-- R332, R424: what a stopped warp still holds is dropped with it: its waits, its loads on absent lines, its products that the
fabric has not begun. -/
def State.dropStopped (s : State) (wid : Nat) (w : Warp) : State :=
  let gone := (s.opsOf wid).map (·.1)
  let s1 : State := { s with
    mem := { s.mem with ops := s.mem.ops.filter (fun (i, _) => !gone.contains i), reqs := s.mem.reqs.filter fun (_, q) => !gone.contains q.op }
    waits := s.waits.filter fun (_, x) => x.members.all fun m => m.wid != wid }
  s1.modQuarter w.quarterOf fun q => { q with fabric := q.fabric.filter fun p => p.wid != wid }

/-- R109, R215: a warp is released: its slots and registers are free, and the launch's time takes its own. -/
def State.releaseWarp (s : State) (wid : Nat) (w : Warp) : State :=
  let l := s.launchOfWarp w
  let s1 := (s.restartTaken wid).leaveCore wid .released
  let s2 := match s.block? w.block, l with
    | some b, some l => (s1.freeSaveSlots l.queue [w.saveSlot] []).modLaunch b.launch fun x => { x with time := maxs x.time w.pts }
    | _, _ => s1
  s2.tryDepart w.block

/-- WARP_RELEASE, R109: every thread has exited and every flag is zero; a block that could not leave with its last warp is tried
again here. A stopped warp of an ended context is released once its issued instructions have completed: R424 promises the other
contexts its place. DEDUCED, log entry 32; unsafe. -/
def execWarpRelease (wid : Nat) (s : State) : Out :=
  match s.warp? wid with
  | none => .next s
  | some w =>
    if w.residence = .released then .next (s.tryDepart w.block)
    else if s.endedQuiet wid w then .next ((s.dropStopped wid w).releaseWarp wid w)
    else if w.resident && w.liveLanes.isEmpty && w.flagsZero (BitVec.allOnes 12) && (s.quarter w.quarterOf).fabric.all (fun p => p.wid != wid) then
      .next (s.releaseWarp wid w)
    else .next s

end Sys2Proof.Machine
end

