-- ==== Sys2Proof/Machine/Links.lean ====
section
/-! DEFINITION. What comes over Causk (R399, R401), how ports degrade and recover (R400), and acknowledgements of posted writes
(R253). -/

namespace Sys2Proof.Machine

open Sys2Proof

/-! ### What a flit brings (R399, R401) -/

/-- The line of this package that a peer's request names. -/
def localLine (line : Nat) : Nat := line % 2 ^ 39

/-- R232: the quay die that a message about a line reaches takes maxs with the clock it carries. -/
def State.hear (s : State) (line : Nat) (clk : LTime) : State := s.bump (homeClockKey (homeOf line)) clk

/-- A request of one of this package's agents has been answered: no port keeps it any more. -/
def State.landed (s : State) (p : LinkMsg → Bool) : State :=
  { s with host := { s.host with ports := s.host.ports.map fun (k, x) => (k, { x with flight := x.flight.filter fun m => !p m }) } }

/-- The clock that an answer about a line of this package carries. -/
def State.ownClock (s : State) (line : Nat) : LTime := s.clock (homeClockKey (homeOf line))

/-- R331, R384, R401: why a peer's load or atomic of a line has no answer here but an error: `true` for a key slot that is gone. A counted line
serves a load and no atomic (R213); a dropped one serves neither. -/
def State.peerError (s : State) (line ctx : Nat) (atomic : Bool) : Option Bool :=
  if s.lineBad line || !s.backed (line * 128) || (Tab.get? s.mem.counted line).any (fun c => atomic || c.count == 0) then some false
  else if s.keyGone ctx then some true
  else none

/-- R235, R401: a load of a peer at the home. This and what follows answer whether the message has been taken in, or must come again. -/
def State.peerLoad (s : State) (req pkg ctx line : Nat) (held : Option LTime) (readOnly : Bool) (pts clk : LTime) : Bool × State :=
  let l := localLine line
  let s1 := (s.hear l clk).hear l pts
  match s1.peerError l ctx false, Tab.get? s1.mem.counted l with
  | some gone, _ => (true, s1.send pkg (.errorReply req gone (s1.ownClock l)))
  | none, some c => (true, s1.send pkg (.loadReply req c.data (s1.home l).wts (s1.home l).wts (s1.ownClock l)))
  | none, none => match s1.openHome l ctx (BitVec.allOnes 128) false false none true none with
    | (false, t) => (false, t)
    | (true, t) =>
      let (w, r, u) := t.homeLoad l ctx pts readOnly held true
      (true, u.send pkg (.loadReply req (u.homeView l (u.keyTag ctx)) w r (u.ownClock l)))

/-- R341: a sampled load served by another package, by its L2 slice or its memory. -/
def State.recordServedRemote (s t : State) (q : LineReq) : State :=
  if q.sampled then t.recordWarp q.wid 0x05 (q.va / 128 + place 49 (11 + Config.choice s.turn % 2)) else t

/-- A request whose instruction is no longer waited for is dropped. -/
def State.dropUnwanted (t : State) (r : Nat) : State :=
  match Tab.get? t.mem.reqs r with
  | some q => if q.keep.isNone && (Tab.get? t.mem.ops q.op).isNone then { t with mem := { t.mem with reqs := Tab.del t.mem.reqs r } } else t
  | none => t

/-- The answer to a load has come. -/
def State.loadLanded (s : State) (req line : Nat) (clk : LTime) : State :=
  (s.hear line clk).landed fun m => match m with | .loadRequest r .. => r == req | _ => false

/-- R235, R242, R401: the reply to a load of this package fills the points on its way, up to the slice for an engine, and serves the
request. -/
def State.takeLoadReply (s : State) (req : Nat) (data : Line) (wts rts clk : LTime) : State :=
  match Tab.get? s.mem.reqs req with
  | none => s
  | some q =>
    if q.stage ≠ .sent then s
    else
      let s1 := s.loadLanded req q.line clk
      let s2 := if q.keep.isNone && (Tab.get? s.mem.ops q.op).isSome then s1.observe q.wid wts true else s1
      let all := BitVec.allOnes 128
      let s3 := s2.fill (l2Point (dieOf q.core)) q.line q.ctx data all wts rts
      let s4 := if q.keep.isSome then s3.hearHome (l2Point (dieOf q.core)) q.line
        else (s3.fill (s2.corePoint q.core) q.line q.ctx data all wts rts).carryBack q.core q.line
      let d := if q.keep.isSome then data else s4.overlay q.core q.line data
      let t := s4.modReq req fun x => { x with stage := .served, data := d, held := some wts }
      (s.recordServedRemote t q).dropUnwanted req

/-- R213, R237, R401: a peer's dirty bytes at the home, or at the copy of a counted line. What cannot be written is acknowledged like the
rest: a posted write has no other answer. -/
def State.peerStore (s : State) (req pkg ctx line : Nat) (data : Line) (mask : LineMask) (pts clk : LTime) : Bool × State :=
  let l := localLine line
  let s1 := (s.hear l clk).hear l pts
  let ack (t : State) (w : LTime) : Bool × State := (true, t.send pkg (.storeReply req w (t.ownClock l)))
  match Tab.get? s1.mem.counted l with
  | some c =>
    let t : State := if c.count = 0 then s1 else
      { s1 with mem := { s1.mem with counted := Tab.put s1.mem.counted l { c with data := mergeLine c.data data mask } } }
    ack t (s1.home l).wts
  | none =>
    if s1.keyGone ctx || !s1.backed (l * 128) then ack s1 pts
    else match s1.openOwned l ctx mask false none true none (remoteIndex pkg) fun _ => false with
    | (false, t) => (false, t)
    | (true, t) =>
      let (w, u) := t.homeStore l pts
      ack (u.writeHome l (u.keyTag ctx) ctx data mask) w

/-- R253: a posted write is acknowledged with the wts it was given: its releasing warp takes it (R246), or the command that made it
(R268). -/
def State.acknowledge (s : State) (id : Nat) (wts : LTime) : State :=
  match Tab.get? s.host.posted id with
  | none => s
  | some p =>
    let s1 := { s with host := { s.host with posted := Tab.del s.host.posted id } }.landed fun m => match m with | .storeRequest r .. => r == id | _ => false
    let s2 := match p.point with | some x => s1.noteMoved x p.rel p.ctx wts | none => s1.raisePts p.rel wts
    s2.taskWritten p (some wts)

/-- R401: a peer's atomic at the home, its lanes in the order sent. -/
def State.peerAtomic (s : State) (req pkg ctx line : Nat) (ops : List (Nat × Nat × Nat × BitVec 64 × BitVec 64)) (pts clk : LTime) : Bool × State :=
  let l := localLine line
  let lanes : List AtomLane := ops.map fun (off, size, var, b, cmp) => ⟨0, 0, l * 128 + off, size, var, b, cmp⟩
  let s1 := (s.hear l clk).hear l pts
  match s1.peerError l ctx true with
  | some gone => (true, s1.send pkg (.errorReply req gone (s1.ownClock l)))
  | none => match s1.openOwned l ctx (atomicMask lanes) true none true none (remoteIndex pkg) fun _ => false with
    | (false, t) => (false, t)
    | (true, t) =>
      let old := (t.home l).wts
      let (d, olds) := applyAtomics (t.homeView l (t.keyTag ctx)) lanes
      let (w, u) := t.homeStore l pts
      let v := u.writeHome l (u.keyTag ctx) ctx d (atomicMask lanes)
      (true, v.send pkg (.atomReply req olds old w (v.ownClock l)))

/-- The answer to an atomic has come. -/
def State.atomLanded (s : State) (req line : Nat) (clk : LTime) : State :=
  (s.hear line clk).landed fun m => match m with | .atomRequest r .. => r == req | _ => false

/-- An atomic of this package that a peer has yet to answer. -/
def State.atomAwaited (s : State) (req : Nat) : Option HomeReq :=
  (Tab.get? s.mem.homeReqs req).filter fun h => isRemote (h.line * 128) && h.grant == .granted

/-- R233, R237, R401: the reply to an atomic of this package: the wts that it took, and that of the value it returns. -/
def State.takeAtomReply (s : State) (req : Nat) (olds : List (BitVec 64)) (old wts clk : LTime) : State :=
  match s.atomAwaited req with
  | none => s
  | some h =>
    let s1 := s.atomLanded req h.line clk
    let s2 := (h.warps.foldl (fun t x => t.raisePts (some x) wts) s1).tellAtomic h none old
    (((s2.raiseLaunches h.ctx wts).returnOlds h.op h.lanes olds).dropHomeReq req).carryBack h.core h.line

/-- R331, R384: a peer answers a load or an atomic of this package with an error. -/
def State.takeError (s : State) (req : Nat) (gone : Bool) (clk : LTime) : State :=
  let code := if gone then Code.keyGone else Code.dataErr
  match s.atomAwaited req, (Tab.get? s.mem.reqs req).filter fun q => q.stage == .sent with
  | some h, _ =>
    let t := s.atomLanded req h.line clk
    match h.op with
    | some op => t.failAccess op (fun _ _ => false) (fun k _ => k == req) code
    | none => t.dropHomeReq req
  | none, some q =>
    let t := s.loadLanded req q.line clk
    if q.keep.isNone && (Tab.get? t.mem.ops q.op).isSome then t.failAccess q.op (fun k _ => k == req) (fun _ _ => false) code
    else t.modReq req fun x => { x with stage := .failed gone }
  | none, none => s

/-! ### The collective flow (R243, R278) -/

/-- The chunks of a source package that wait and come next in sequence are delivered. -/
def State.deliverColl (s : State) (pkg : Nat) : Nat → State
  | 0 => s
  | n + 1 =>
    let due := Tab.getD s.host.collDue pkg 0
    match s.host.collHeld.find? fun (k, c) => c.pkg == pkg && k == due with
    | some x =>
      ({ s with
        chunks := s.chunks ++ [x.2]
        host := { s.host with collHeld := s.host.collHeld.erase x, collDue := Tab.put s.host.collDue pkg (due + 1) } } : State).deliverColl pkg n
    | none => s

/-- R232: a message about no line brings its clock to every quay die (DESIGN CHOICE, log entry 116). -/
def State.hearAll (s : State) (clk : LTime) : State := (List.range 4).foldl (fun t q => t.bump (homeClockKey q) clk) s

/-- R243: a chunk of the collective flow: in the ordered mode in its place in the sequence of its source package, and none where the reorder
buffer is full; in the unordered mode as it comes. -/
def State.takeChunk (s : State) (seq : Nat) (c : RemoteChunk) (clk : LTime) : Bool × State :=
  let t := s.hearAll clk
  let due := Tab.getD s.host.collDue c.pkg 0
  if s.orderedFlow collectiveFlow then
    if seq < due then (true, t)
    else if due < seq ∧ reorderEntries ≤ s.host.collHeld.length then (false, s)
    else (true, ({ t with host := { t.host with collHeld := t.host.collHeld ++ [(seq, c)] } } : State).deliverColl c.pkg (t.host.collHeld.length + 1))
  else
    let held := t.host.collHeld.filter fun x => x.2.pkg == c.pkg
    (true, { t with
      chunks := t.chunks ++ held.map (·.2) ++ [c]
      host := { t.host with collHeld := t.host.collHeld.filter fun x => x.2.pkg != c.pkg, collDue := Tab.put t.host.collDue c.pkg (max due (seq + 1)) } })

/-! ### Flits -/

/-- R399: the flits of a message that has been taken in: their credits go back with the next header. -/
def State.creditBack (s : State) (port : Nat) (msg : LinkMsg) : State :=
  let x := s.port port
  s.putPort port { x with returns := Tab.put x.returns (msgChannel msg) (Tab.getD x.returns (msgChannel msg) 0 + msgFlits msg) }

/-- R399, R401: what a message does, and whether it has been taken in. -/
def State.takeMsg (s : State) (port : Nat) (msg : LinkMsg) : Bool × State :=
  match msg with
  | .loadRequest req pkg ctx line held ro pts clk => s.peerLoad req pkg ctx line held ro pts clk
  | .loadReply req data wts rts clk => (true, s.takeLoadReply req data wts rts clk)
  | .storeRequest req pkg ctx line data mask pts clk => s.peerStore req pkg ctx line data mask pts clk
  | .storeReply req wts clk =>
    match Tab.get? s.host.posted req with
    | some p => (true, (s.hear p.line clk).acknowledge req wts)
    | none => (true, s)
  | .atomRequest req pkg ctx line ops pts clk => s.peerAtomic req pkg ctx line ops pts clk
  | .atomReply req olds old wts clk => (true, s.takeAtomReply req olds old wts clk)
  | .errorReply req gone clk => (true, s.takeError req gone clk)
  | .collChunk seq ctx inst tag pkg die chunk agree clk => s.takeChunk seq ⟨ctx, 4, tag, pkg, die, inst, chunk, agree⟩ clk
  | .credits ch n clk =>
    let x := s.port port
    (true, ((s.hearAll clk).putPort port { x with credits := Tab.put x.credits ch (Tab.getD x.credits ch 0 + n) }).pump)

/-- FLIT_RECEIVE, R399, R401: the message of a flit on a port that is up. One whose line is not ready waits, and comes again. -/
def execFlitReceive (port : Nat) (msg : LinkMsg) (s : State) : Out :=
  if (s.port port).status ≠ 2 then .next s
  else match s.takeMsg port msg with
  | (true, t) => .next ((t.creditBack port msg).answerDoorbells)
  | (false, t) => .next t

/-- POSTED_WRITE_ACK, R253: a peer acknowledges a posted write; the wts that it was given there is free. -/
def execPostedWriteAck (id : Nat) (s : State) : Out := .next (s.acknowledge id (BitVec.ofNat 24 (Config.choice s.turn)))

/-! ### Ports (R399, R400) -/

/-- CRC_ERROR_REPLAY, R399: the flits are sent again, in order; the error counts for R400. -/
def execCrcErrorReplay (port : Nat) (s : State) : Out :=
  let x := s.port port
  .next (if x.status = 2 then s.putPort port { x with errors := (s.elapsed :: x.errors).take 8 } else s)

/-- PORT_RETRAIN, R400: a port retrains on loss of lock, or after 8 errors within 1 ms. -/
def execPortRetrain (port : Nat) (s : State) : Out :=
  let x := s.port port
  .next (if port < 9 ∧ x.status = 2 then s.putPort port { x with status := 1, errors := [], since := s.elapsed } else s)

/-- R338: the retrain bound in real time. -/
def State.retrainBound (s : State) : Nat := (if s.sys.retrain = 0 then 1000 else s.sys.retrain.toNat) * usTime

/-- R253, R268, R400: posted writes count as unacknowledged; a command waits for them no longer. -/
def State.losePosted (s : State) (which : Nat → Posted → Bool) : State :=
  let lost := s.host.posted.filter fun (k, p) => !p.lost && which k p
  let t : State := { s with host := { s.host with posted := s.host.posted.map fun (k, p) => (k, { p with lost := p.lost || which k p }) } }
  lost.foldl (fun t (_, p) => t.taskWritten p none) t

/-- R400: what was in flight on a port that goes down: writes count as unacknowledged, loads and atomics are sent again. -/
def State.reissue (s : State) (m : LinkMsg) : State :=
  match m with
  | .storeRequest id .. => s.losePosted fun k _ => k == id
  | .loadRequest r .. => s.modReq r fun q => { q with stage := if q.stage = .sent then .remote else q.stage }
  | .atomRequest r .. => { s with mem := { s.mem with homeReqs := Tab.modify s.mem.homeReqs r fun h => { h with grant := .sent } } }
  | _ => s

/-- R400: a peer that no port reaches: what was to be sent there is not, its writes count as unacknowledged, and a record names it. -/
def State.loseUnreachable (s : State) (pkg : Nat) : State :=
  let out := s.host.outbox.filter fun (p, _, _) => p == pkg
  let s1 := (out.foldl (fun t (_, m, _) => t.reissue m) s).losePosted fun _ p => p.peer == pkg
  let t : State := { s1 with host := { s1.host with
    outbox := s1.host.outbox.filter fun (p, _, _) => p != pkg
    lostPeers := s1.host.lostPeers ++ [pkg] } }
  let n := (t.host.posted.filter fun (_, p) => p.peer == pkg && p.lost).length
  t.record (Config.choice s.turn % 1536) 4 0 0 0x12 (pkg + place 9 n)

/-- R400: the peers of the domain that no port reaches any more. -/
def State.loseAllUnreachable (s : State) : State :=
  let known (p : Nat) : Bool := Config.domainPackage p || s.host.posted.any fun x => x.2.peer == p
  ((List.range 512).filter fun p => known p && p != s.sys.causkid.toNat && (s.portsTo p).isEmpty && !s.host.lostPeers.contains p).foldl
    State.loseUnreachable s

/-- RETRAIN_TIMEOUT, R400: a port not trained again within the bound is down. -/
def execRetrainTimeout (port : Nat) (s : State) : Out :=
  let x := s.port port
  if x.status = 1 ∧ s.retrainBound ≤ s.elapsed - x.since then
    let s1 := s.putPort port { x with status := 0, credits := [], flight := [], returns := [] }
    .next ((x.flight.foldl State.reissue s1).loseAllUnreachable).pump
  else .next s

/-- R400: the code of a width. -/
def widthCode (lanes : Nat) : Option Nat := match lanes with | 2 => some 0 | 4 => some 1 | 8 => some 2 | _ => none

/-- PORT_TRAINED, R399, R400: a port is up, with the credits its peer advertises, whose number is free; what waited for it leaves. -/
def execPortTrained (port lanes : Nat) (s : State) : Out :=
  let x := s.port port
  match widthCode lanes with
  | some w =>
    if port < 9 ∧ x.status ≠ 2 then
      let credits := (List.range 6).map fun c => (c, Config.choices s.turn c)
      let s1 := s.putPort port { x with status := 2, width := w, credits := credits, errors := [], since := s.elapsed }
      .next ({ s1 with host := { s1.host with lostPeers := s1.host.lostPeers.filter fun p => !Config.portReaches port p } } : State).pump
    else .next s
  | none => .next s

end Sys2Proof.Machine
end

