-- ==== Sys2Proof/Machine/Logic.lean ====
section
/-! DEFINITION. Logic, shifts, bit fields and byte permutation (R94 to R97). -/

namespace Sys2Proof.Machine

open Sys2Proof

/-- R94: shifts by a count read as an unsigned number. -/
def shiftLeft (a n : Word) : Word := if 32 ≤ n.toNat then 0 else a <<< n.toNat
def shiftRight (a n : Word) : Word := if 32 ≤ n.toNat then 0 else a >>> n.toNat
def shiftArith (a n : Word) : Word := if 32 ≤ n.toNat then (if a.getLsbD 31 then BitVec.allOnes 32 else 0) else a.sshiftRight n.toNat

def opAnd (len : Nat) (f : X3) (s : State) : State := s.op2 len f fun a b => a &&& b
def opOr (len : Nat) (f : X3) (s : State) : State := s.op2 len f fun a b => a ||| b
def opXor (len : Nat) (f : X3) (s : State) : State := s.op2 len f fun a b => a ^^^ b
def opAndn (len : Nat) (f : X3) (s : State) : State := s.op2 len f fun a b => a &&& ~~~b
def opNot (len : Nat) (f : X3) (s : State) : State := s.op1 len f fun a => ~~~a
def opShl (len : Nat) (f : X3) (s : State) : State := s.op2 len f shiftLeft
def opShr (len : Nat) (f : X3) (s : State) : State := s.op2 len f shiftRight
def opSar (len : Nat) (f : X3) (s : State) : State := s.op2 len f shiftArith

/-- R95: the 64-bit value c:a shifted right. -/
def funnel (a b c : Word) : Word := ((c ++ a) >>> min b.toNat 64).extractLsb' 0 32

def opShf (len : Nat) (f : X3) (s : State) : State := s.op3 len f funnel

/-- R96: position and width of a field. -/
def fieldPos (b : Word) : Nat := (b.extractLsb' 0 8).toNat
def fieldWidth (b : Word) : Nat := min 32 (b.extractLsb' 8 8).toNat

/-- R96: BFX. -/
def bitExtract (signed : Bool) (a b : Word) : Word :=
  let p := fieldPos b
  let w := fieldWidth b
  let bit : Nat → Bool := fun i => if p + i ≤ 31 then a.getLsbD (p + i) else signed && a.getLsbD 31
  (List.range 32).foldl (fun r i => if (if i < w then bit i else signed && decide (0 < w) && bit (w - 1)) then r ||| BitVec.twoPow 32 i else r) 0

/-- R96: BFI. -/
def bitInsert (a b c : Word) : Word :=
  let p := fieldPos b
  let w := fieldWidth b
  (List.range 32).foldl (fun r i =>
    if (if p ≤ i ∧ i - p < w then a.getLsbD (i - p) else c.getLsbD i) then r ||| BitVec.twoPow 32 i else r) 0

def opBfx (len : Nat) (f : X3) (s : State) : State := s.op2 len f (bitExtract (f.ty == 0))
def opBfi (len : Nat) (f : X3) (s : State) : State := s.op3 len f bitInsert

/-- R97: one byte of PRMT. -/
def permuteByte (ba : DWord) (sel : BitVec 4) : Byte :=
  let b := ba.extractLsb' (8 * (sel.extractLsb' 0 3).toNat) 8
  if sel.getLsbD 3 then (if b.getLsbD 7 then 0xFF#8 else 0) else b

def permute (a b c : Word) : Word :=
  permuteByte (b ++ a) (c.extractLsb' 12 4) ++ permuteByte (b ++ a) (c.extractLsb' 8 4) ++
  permuteByte (b ++ a) (c.extractLsb' 4 4) ++ permuteByte (b ++ a) (c.extractLsb' 0 4)

def opPrmt (len : Nat) (f : X3) (s : State) : State := s.op3 len f permute

/-! ### Immediate forms (R78) -/

def opAndImm (len : Nat) (f : XI) (s : State) : State := s.opImm len f fun a b => a &&& b
def opOrImm (len : Nat) (f : XI) (s : State) : State := s.opImm len f fun a b => a ||| b
def opXorImm (len : Nat) (f : XI) (s : State) : State := s.opImm len f fun a b => a ^^^ b
def opShlImm (len : Nat) (f : XI) (s : State) : State := s.opImm len f shiftLeft
def opShrImm (len : Nat) (f : XI) (s : State) : State := s.opImm len f shiftRight
def opSarImm (len : Nat) (f : XI) (s : State) : State := s.opImm len f shiftArith

/-! ### Meanings -/

/-- AND_16, R63. -/
def execAnd16 (y : BitVec 5) (x : BitVec 6) (s : State) : Out :=
  .next (opAnd 2 (s.form16 y x) s)

/-- OR_16, R63. -/
def execOr16 (y : BitVec 5) (x : BitVec 6) (s : State) : Out :=
  .next (opOr 2 (s.form16 y x) s)

/-- XOR_16, R63. -/
def execXor16 (y : BitVec 5) (x : BitVec 6) (s : State) : Out :=
  .next (opXor 2 (s.form16 y x) s)

/-- SHL_16, R63. -/
def execShl16 (y : BitVec 5) (x : BitVec 6) (s : State) : Out :=
  .next (opShl 2 (s.form16 y x) s)

/-- SHR_16, R63. -/
def execShr16 (y : BitVec 5) (x : BitVec 6) (s : State) : Out :=
  .next (opShr 2 (s.form16 y x) s)

/-- SAR_16, R63. -/
def execSar16 (y : BitVec 5) (x : BitVec 6) (s : State) : Out :=
  .next (opSar 2 (s.form16 y x) s)

/-- AND, R94. -/
def execAnd (b : BitVec 7) (a : BitVec 7) (d : BitVec 7) (s : State) : Out :=
  .next (opAnd 4 (s.form32 b a d) s)

/-- AND_W, R94. -/
def execAndW (f : X3) (s : State) : Out :=
  .next (opAnd 8 f s)

/-- OR, R94. -/
def execOr (b : BitVec 7) (a : BitVec 7) (d : BitVec 7) (s : State) : Out :=
  .next (opOr 4 (s.form32 b a d) s)

/-- OR_W, R94. -/
def execOrW (f : X3) (s : State) : Out :=
  .next (opOr 8 f s)

/-- XOR, R94. -/
def execXor (b : BitVec 7) (a : BitVec 7) (d : BitVec 7) (s : State) : Out :=
  .next (opXor 4 (s.form32 b a d) s)

/-- XOR_W, R94. -/
def execXorW (f : X3) (s : State) : Out :=
  .next (opXor 8 f s)

/-- ANDN, R94. -/
def execAndn (b : BitVec 7) (a : BitVec 7) (d : BitVec 7) (s : State) : Out :=
  .next (opAndn 4 (s.form32 b a d) s)

/-- ANDN_W, R94. -/
def execAndnW (f : X3) (s : State) : Out :=
  .next (opAndn 8 f s)

/-- NOT, R94. -/
def execNot (a : BitVec 7) (d : BitVec 7) (s : State) : Out :=
  .next (opNot 4 (s.form32 0 a d) s)

/-- NOT_W, R94. -/
def execNotW (f : X3) (s : State) : Out :=
  .next (opNot 8 f s)

/-- SHL, R94. -/
def execShl (b : BitVec 7) (a : BitVec 7) (d : BitVec 7) (s : State) : Out :=
  .next (opShl 4 (s.form32 b a d) s)

/-- SHL_W, R94. -/
def execShlW (f : X3) (s : State) : Out :=
  .next (opShl 8 f s)

/-- SHR, R94. -/
def execShr (b : BitVec 7) (a : BitVec 7) (d : BitVec 7) (s : State) : Out :=
  .next (opShr 4 (s.form32 b a d) s)

/-- SHR_W, R94. -/
def execShrW (f : X3) (s : State) : Out :=
  .next (opShr 8 f s)

/-- SAR, R94. -/
def execSar (b : BitVec 7) (a : BitVec 7) (d : BitVec 7) (s : State) : Out :=
  .next (opSar 4 (s.form32 b a d) s)

/-- SAR_W, R94. -/
def execSarW (f : X3) (s : State) : Out :=
  .next (opSar 8 f s)

/-- SHF, R95. -/
def execShf (b : BitVec 7) (a : BitVec 7) (d : BitVec 7) (s : State) : Out :=
  .next (opShf 4 (accumulating (s.form32 b a d)) s)

/-- SHF_W, R95. -/
def execShfW (f : X3) (s : State) : Out :=
  .next (opShf 8 f s)

/-- BFX, R96. -/
def execBfx (m : Bool) (b : BitVec 7) (a : BitVec 7) (d : BitVec 7) (s : State) : Out :=
  .next (opBfx 4 { s.form32 b a d with ty := pick m 1 0 } s)

/-- BFX_W, R96. -/
def execBfxW (f : X3) (s : State) : Out :=
  .next (opBfx 8 f s)

/-- BFI, R96. -/
def execBfi (b : BitVec 7) (a : BitVec 7) (d : BitVec 7) (s : State) : Out :=
  .next (opBfi 4 (accumulating (s.form32 b a d)) s)

/-- BFI_W, R96. -/
def execBfiW (f : X3) (s : State) : Out :=
  .next (opBfi 8 f s)

/-- PRMT, R97. -/
def execPrmt (b : BitVec 7) (a : BitVec 7) (d : BitVec 7) (s : State) : Out :=
  .next (opPrmt 4 (accumulating (s.form32 b a d)) s)

/-- PRMT_W, R97. -/
def execPrmtW (f : X3) (s : State) : Out :=
  .next (opPrmt 8 f s)

/-- AND_IMM, R78. -/
def execAndImm (i : BitVec 7) (a : BitVec 7) (d : BitVec 7) (s : State) : Out :=
  .next (opAndImm 4 (s.imm32 i a d) s)

/-- AND_IMM_W, R78. -/
def execAndImmW (f : XI) (s : State) : Out :=
  .next (opAndImm 8 f s)

/-- OR_IMM, R78. -/
def execOrImm (i : BitVec 7) (a : BitVec 7) (d : BitVec 7) (s : State) : Out :=
  .next (opOrImm 4 (s.imm32 i a d) s)

/-- OR_IMM_W, R78. -/
def execOrImmW (f : XI) (s : State) : Out :=
  .next (opOrImm 8 f s)

/-- XOR_IMM, R78. -/
def execXorImm (i : BitVec 7) (a : BitVec 7) (d : BitVec 7) (s : State) : Out :=
  .next (opXorImm 4 (s.imm32 i a d) s)

/-- XOR_IMM_W, R78. -/
def execXorImmW (f : XI) (s : State) : Out :=
  .next (opXorImm 8 f s)

/-- SHL_IMM, R78. -/
def execShlImm (i : BitVec 7) (a : BitVec 7) (d : BitVec 7) (s : State) : Out :=
  .next (opShlImm 4 (s.imm32 i a d) s)

/-- SHL_IMM_W, R78. -/
def execShlImmW (f : XI) (s : State) : Out :=
  .next (opShlImm 8 f s)

/-- SHR_IMM, R78. -/
def execShrImm (i : BitVec 7) (a : BitVec 7) (d : BitVec 7) (s : State) : Out :=
  .next (opShrImm 4 (s.imm32 i a d) s)

/-- SHR_IMM_W, R78. -/
def execShrImmW (f : XI) (s : State) : Out :=
  .next (opShrImm 8 f s)

/-- SAR_IMM, R78. -/
def execSarImm (i : BitVec 7) (a : BitVec 7) (d : BitVec 7) (s : State) : Out :=
  .next (opSarImm 4 (s.imm32 i a d) s)

/-- SAR_IMM_W, R78. -/
def execSarImmW (f : XI) (s : State) : Out :=
  .next (opSarImm 8 f s)

end Sys2Proof.Machine
end

