-- ==== Sys2Proof/Machine/Matrix.lean ====
section
/-! DEFINITION. Matrix mode (R158 to R191): MODE, the product instructions and their K-steps, the MMAT rendezvous, and the
epilogue instructions that stay in one warp. -/

namespace Sys2Proof.Machine

open Sys2Proof

/-! ### MODE (R161, R162) -/

/-- R162: MODE.M may not be taken. -/
def State.modeStops (s : State) (wid : Nat) : Bool :=
  match s.warp? wid with
  | none => true
  | some w =>
    w.alloc != 256 || w.liveMask != BitVec.allOnes 32 ||
    decide (2 ≤ (s.warps.filter fun (i, x) => i != wid && x.place?.isSome && x.quarterOf == w.quarterOf && x.mmode).length)

def opMode (len : Nat) (f : X3) (s : State) : State :=
  s.issue { shapeX3 len f [] with place := .leading } fun e s =>
    let enter := f.b.getLsbD 0
    let bad := e.exec.filter fun m => enter && !(s.warp? m.wid).any (·.mmode) && s.modeStops m.wid
    if !bad.isEmpty then .fault (allCauses bad Code.modeState 0) 0
    else .done ((warpsOf e.exec).foldl (fun t w => t.modWarp w fun x => { x with mmode := enter }) s)

/-- Every warp of the group is in matrix mode. -/
def Env.inMatrix (e : Env) (s : State) : Bool := (warpsOf e.members).all fun w => (s.warp? w).any (·.mmode)

/-! ### Operands of a product (R179) -/

def Product.f (p : Product) : X3 := X3.ofWord p.enc

/-- The A rows come from registers. -/
def fromRegs (f : X3) : Bool := !f.c.getLsbD 7
def recA (f : X3) : Nat := f.c.toNat % 8
def firstColumn (f : X3) : Nat := f.d.toNat - 128
/-- R179, R181. -/
def clears (f : X3) : Bool := f.scope.getLsbD 5

/-- R179: the words of a register row that hold elements, and all of them. -/
def rowWords (ty ks : Nat) : Nat := (if ty = fmtQb8 then 2 else 4) * ks
def rowRegs (ty ks : Nat) : Nat :=
  rowWords ty ks + (if pairingClass ty = 1 ∨ pairingClass ty = 2 then (blocksOf ty 32 ks + 3) / 4 else 0)

/-- R179: the scaled elements of a register row at a K-step. -/
def registerValues (ty ks step : Nat) (row : List Word) (entry : Nat → Nat) : List Real :=
  let v := packNat 32 (row.map (·.toNat))
  let z := chunkSize ty
  let l := chunkValues ty (v / 256 ^ (z * step) % 256 ^ z) entry
  if pairingClass ty = 1 ∨ pairingClass ty = 2 then
    scaleBy ty 32 step (fun b => v / 2 ^ (32 * rowWords ty ks + 8 * b) % 256) l
  else l

/-! ### Checks (R179, R180) -/

/-- The lowest code among the faults of a product: its A operand, its B records and the columns they cover. -/
def productFault (w : Warp) (f : X3) (ks : Nat) (bs : List Nat) (format bound : Bool) : Option (BitVec 16) :=
  let ds := bs.filterMap fun k => (w.record? k).map (·.desc)
  let a := if fromRegs f then none else (w.record? (recA f)).map (·.desc)
  let fmtA := if fromRegs f then f.ty.toNat else (a.map obFormat).getD 0
  let noB := decide (ds.length < bs.length) || ds.any fun d => obRole d != 0
  let noA := !fromRegs f && (match a with | some d => obRole d != 1 | none => true)
  let noBook := fromRegs f && fmtA == fmtQb8 && ds.any fun d => obFormat d != fmtQb8
  if noB || noA || noBook then some Code.obState
  else if format || (ds.any fun d => pairingClass (obFormat d) != pairingClass fmtA) ||
      (match ds with | d :: rest => rest.any fun x => panelCols x != panelCols d | [] => false) then some Code.mmFormat
  else if bound || (ds.any fun d => decide (128 < firstColumn f + panelCols d) || !panelFits d ks) ||
      (match a with | some d => !panelFits d ks | none => decide (128 < f.a.toNat + rowRegs fmtA ks)) then some Code.mmBound
  else none

/-- R159: the plane bits of a warp's records. -/
def Warp.planeBits (w : Warp) : BitVec 8 := w.records.foldl (fun b (k, r) => if r.plane then b ||| BitVec.twoPow 8 k else b) 0

/-! ### Issue of MMA and MMAG (R168, R179, R180) -/

/-- R168: the capacity of a fabric queue. -/
def fabricCapacity : Nat := 4

/-- R167, R175: what a product still waits for: earlier OBLDs to the lines it reads, and results due in what it reads. -/
def productHeld (lanes : List Member) (s : State) (w : Warp) (p : Product) (rowFrom rowCount : Nat) : Bool :=
  let (n0, n) := p.columns w
  s.obldWrites p.wid (p.reads w) ||
  lanes.any fun m => ((List.range n).any fun i => s.pendingResult m (128 + n0 + i)) || (List.range rowCount).any fun i => s.pendingResult m (rowFrom + i)

/-- The group's product joins its quarter's queue, and its flag rises. In an idle fabric its first K-step begins (R168); the K-steps of
a team begin together (R181). -/
def State.enqueue (s : State) (q : Nat) (p : Product) : State :=
  (s.countUp [p.wid] p.flag).modQuarter q fun x =>
    { x with fabric := x.fabric ++ [{ p with issued := s.turn, inFabric := x.fabric.isEmpty && p.kind != .mmat }] }

def Env.product (e : Env) (w : Warp) (f : X3) (kind : ProductKind) (opc : BitVec 9) (ks : Nat) (groups : List (Nat × Nat × Nat))
    (regA : Tab (List Word)) : Product where
  wid := e.first.wid
  kind := kind
  enc := X3.word f opc
  pc := BitVec.ofNat 56 e.pc
  nextK := 0
  steps := ks
  planes := w.planeBits
  flag := e.flag f.fs
  rows := maskOf (e.exec.map (·.lane))
  regA := regA
  groups := groups
  desc := 0
  inFabric := false
  issued := 0
  ts := w.pts
  seen := none
  team := 0
  tile := 0
  aScales := 0
  bScales := 0

/-- R179: K-steps of MMA and MMAG. -/
def kSteps (f : X3) : Nat := f.scope.toNat % 32 + 1

def shapeProduct (f : X3) (regs : List (Nat × Nat)) : Shape :=
  { shapeX3 8 f regs with place := .leading, flag := some f.fs,
                          named := if fromRegs f then [r1 f.d, r1 f.a] else [r1 f.d] }

/-- The rest of the issue of MMA and MMAG. Register rows are read as they stand at issue, once: what a handler does to V0 to V127 while
the product is suspended does not reach it (DESIGN CHOICE, log entry 104). -/
def Env.beginProduct (e : Env) (s : State) (w : Warp) (f : X3) (kind : ProductKind) (opc : BitVec 9)
    (groups : List (Nat × Nat × Nat)) : Effect :=
  let ks := kSteps f
  let n := if fromRegs f then rowRegs f.ty.toNat ks else 0
  let regA : Tab (List Word) := if fromRegs f then
      e.exec.foldl (fun t m => Tab.put t m.lane ((List.range n).map fun i => s.reg m (f.a.toNat + i))) [] else []
  let p := e.product w f kind opc ks groups regA
  if productHeld e.exec s w p f.a.toNat n || decide (fabricCapacity ≤ (s.quarter e.q).fabric.length) then .hold s
  else .done (s.enqueue e.q p)

def opMma (f : X3) (s : State) : State :=
  s.issue (shapeProduct f []) fun e s =>
    match e.inMatrix s, s.warp? e.first.wid with
    | true, some w =>
      let j := f.b.toNat % 8
      match productFault w f (kSteps f) [j] false false with
      | some c => .fault (allCauses e.exec c 0) 0
      | none => e.beginProduct s w f .mma 0x100 [(0, 32, j)]
    | _, _ => .fault (allCauses e.exec Code.modeState 0) 0

/-- R180: the groups of a table of that many entries: first row, rows and record. -/
def groupTable (v g : Nat) : List (Nat × Nat × Nat) :=
  ((List.range g).foldl (fun (l, r) i =>
    let x := element 16 i v
    (l ++ [(r, x % 64, x / 256 % 8)], r + x % 64)) (([] : List (Nat × Nat × Nat)), 0)).1

/-- R180: bits of an entry that must be zero. -/
def groupBits (v g : Nat) : Bool := (List.range g).any fun i => let x := element 16 i v; x / 64 % 4 != 0 || x / 2048 != 0

def opMmag (f : X3) (s : State) : State :=
  s.issue (shapeProduct f [r4 f.a]) fun e s =>
    match e.inMatrix s, s.warp? e.first.wid with
    | true, some w =>
      let g := f.b.toNat % 16
      let v := s.regs e.first f.a.toNat 4
      let groups := (groupTable v g).filter fun x => decide (0 < x.2.1)
      let rows := groups.foldl (fun n x => n + x.2.1) 0
      -- the sum is judged before any group's record is examined (R180)
      match productFault w f (kSteps f) (if 32 < rows then [] else groups.map (·.2.2)) (groupBits v g) (decide (32 < rows)) with
      | some c => .fault (allCauses e.exec c 0) 0
      | none => e.beginProduct s w f .mmag 0x101 groups
    | _, _ => .fault (allCauses e.exec Code.modeState 0) 0

/-! ### MMAT (R181) -/

def mmatField (d : BitVec 512) (hi lo : Nat) : Nat := field d.toNat hi lo
def mmatSteps (d : BitVec 512) : Nat := mmatField d 269 256 + 1
def mmatRows (d : BitVec 512) : Nat := mmatField d 273 270 + 1
def mmatCols (d : BitVec 512) : Nat := mmatField d 276 274 + 1
def mmatA (d : BitVec 512) : Nat := mmatField d 63 8
def mmatB (d : BitVec 512) : Nat := mmatField d 127 72

/-- R181: reserved bits, and a TC outside the 1 to 4 warp columns that the layout gives (DEDUCED, log entry 105). -/
def mmatReserved (d : BitVec 512) : Bool :=
  decide (4 < mmatCols d) || mmatField d 511 277 != 0 || mmatField d 199 192 != 0 || mmatField d 135 128 != 0 || mmatField d 71 64 != 0 || mmatField d 7 0 != 0

/-- R181: the lines of a staging range that the ring of slabs uses: those outside the codebook (log entry 15). -/
def ringLines (d : BitVec 256) : List Nat :=
  (lineRange 0 (obLen d)).filter fun l => obFormat d != fmtQb8 || decide (l < obCodebook d) || decide (obCodebook d + 8 ≤ l)

/-- R181: bytes of one warp's slab, and slabs in the ring. -/
def slabBytes (d : BitVec 256) : Nat := obCount d * chunkSize (obFormat d)
def ringSlabs (d : BitVec 256) : Nat := (ringLines d).length * 128 / slabBytes d

/-- R299: blocks of a team instance; 1 without a team level. -/
def Launch.teamSize (l : Launch) : Nat :=
  match (List.range l.levels).filter fun i => l.domain i == 3 with
  | [] => 1
  | ls => max 1 (l.span (l.blockLevel + 1) (ls.foldl max 0 + 1))

/-- The blocks of the team instance of a warp, in the order of their rank. -/
def State.teamBlocks (s : State) (wid : Nat) : List Nat :=
  match s.warp? wid with
  | none => []
  | some w =>
    match s.block? w.block, s.launchOfWarp w with
    | some b, some l =>
      let base := b.linear - l.teamRank b.linear
      (List.range l.teamSize).filterMap fun t =>
        (s.blocks.find? fun (_, x) => x.launch == b.launch && x.linear == base + t && !x.departed).map (·.1)
    | _, _ => []

/-- The lowest code among the faults of an MMAT; `desc` is none when its descriptor cannot be read. -/
def State.mmatFault (s : State) (w : Warp) (f : X3) (desc : Option (BitVec 512)) : Option (BitVec 16) :=
  match (w.record? (recA f)).map (·.desc), (w.record? (f.b.toNat % 8)).map (·.desc) with
  | some a, some b =>
    if obRole a != 1 || obRole b != 0 then some Code.obState
    else if pairingClass (obFormat a) != pairingClass (obFormat b) || desc.any mmatReserved then some Code.mmFormat
    else if decide (128 < firstColumn f + panelCols b) || decide (ringSlabs a < 2) || decide (ringSlabs b < 2) ||
        desc.any (fun d => mmatRows d * mmatCols d != 4 * ((s.launchOfWarp w).map Launch.teamSize).getD 1) then some Code.mmBound
    else none
  | _, _ => some Code.obState

def opMmat (f : X3) (s : State) : State :=
  s.issue { shapeX3 8 f [r2 f.a] with place := .leading, flag := some f.fs, named := [r1 f.d] } fun e s =>
    match e.inMatrix s, s.warp? e.first.wid with
    | true, some w =>
      if e.members.head? ≠ some e.first then .done s
      else
        let va := (s.pair e.first f.a.toNat).toNat
        let (r, t) := s.readObject e.first va 64 64
        let desc : Option (BitVec 512) := match r with | .ok v => some (BitVec.ofNat 512 v) | .error _ => none
        let held (d : BitVec 256) (k : Nat) : Bool := s.obldWrites e.first.wid (lineRange (planeFirst d (w.planeBits.getLsbD k)) (obLen d))
        match s.mmatFault w f desc, r with
        | some c, _ => .fault (allCauses e.exec c 0) 0
        | none, .error x => e.stopAll s t x
        | none, .ok v =>
          let d := BitVec.ofNat 512 v
          if mmatA d % 128 ≠ 0 then e.stopAll s t (.fault Code.misalign (BitVec.ofNat 64 (mmatA d)))
          else if mmatB d % 128 ≠ 0 then e.stopAll s t (.fault Code.misalign (BitVec.ofNat 64 (mmatB d)))
          else
            let p := e.product w f .mmat 0x102 (mmatSteps d) [(0, 32, f.b.toNat % 8)] []
            let ranges := [recA f, f.b.toNat % 8].any fun k => (w.record? k).any fun x => held x.desc k
            if ranges || productHeld e.members s w p 0 0 || decide (fabricCapacity ≤ (s.quarter e.q).fabric.length) then .hold t else .wait (.mmat f d va) false t
    | _, _ => .fault (allCauses e.exec Code.modeState 0) 0

/-- The MMAT that a warp waits in, with its wait. -/
def State.mmatWait (s : State) (wid : Nat) : Option (Nat × X3 × BitVec 512 × Nat) :=
  s.waits.findSome? fun (i, x) => match x.kind with
    | .mmat f d va => if x.members.any (·.wid == wid) then some (i, f, d, va) else none
    | _ => none

/-- R181: the warp of a quarter of a block's core that waits at a descriptor address. -/
def State.mmatAt (s : State) (blk quarter va : Nat) : Option Nat :=
  match s.block? blk with
  | none => none
  | some b => b.warps.find? fun w =>
      (s.warp? w).any (fun x => x.quarterOf % 4 == quarter) && (s.mmatWait w).any fun (_, _, _, v) => v == va

/-- R181: one warp's MMAT joins its fabric queue as tile `tile` of a team. -/
def State.startMmat (s : State) (team : Nat) (tile wid : Nat) : State :=
  match s.mmatWait wid, s.warp? wid with
  | some (i, f, d, _), some w =>
    match w.threads with
    | (_, t) :: _ =>
      let p : Product := ⟨wid, .mmat, X3.word f 0x102, t.pc, 0, mmatSteps d, w.planeBits, hdrFlag t.rhdr f.fs, BitVec.allOnes 32, [],
        [(0, 32, f.b.toNat % 8)], d, false, 0, w.pts, none, team, tile, 0, 0⟩
      (s.endWait i).enqueue w.quarterOf p
    | [] => s
  | _, _ => s

/-- MMAT_RENDEZVOUS, R181: one warp of each quarter of every team core waits at the same descriptor address, and the fabric
queues have room. -/
def execMmatRendezvous (wid : Nat) (s : State) : Out :=
  match s.mmatWait wid, (s.warp? wid).bind s.launchOfWarp with
  | some (_, _, _, va), some l =>
    let places := (s.teamBlocks wid).flatMap fun b => (List.range 4).map fun q => s.mmatAt b q va
    let wids := places.filterMap id
    let room := wids.all fun w => (s.warp? w).any fun x => decide ((s.quarter x.quarterOf).fabric.length < fabricCapacity)
    if places.length = 4 * l.teamSize ∧ wids.length = places.length ∧ room then
      let s1 : State := { s with fresh := s.fresh + 1 }
      .next ((wids.zip (List.range wids.length)).foldl (fun t (w, k) => t.startMmat s.fresh k w) s1)
    else .next s
  | _, _ => .next s

/-! ### Slabs of MMAT -/

/-- What a read of a panel comes to. -/
inductive Slab where
  | data (v : Nat)
  | waits
  | replay (page : Nat)
  | fault (code : BitVec 16) (addr : Nat)
  | watch (index addr : Nat)
  deriving DecidableEq, Repr

/-- R181, R242: one line of a panel, as an engine reads it. -/
def State.slabLine (s : State) (p : Product) (va : Nat) : Slab × State :=
  let core := s.coreOf p.wid
  let ctx := s.ctxOf p.wid
  match s.engineTarget ctx core (s.blockOf p.wid) va .read with
  | (.error (.fault c), t) => (.fault c va, t)
  | (.error .replay, t) => (.replay (va / 65536), t)
  | (.error _, t) => (.waits, t)
  | (.ok a, t) =>
    match t.engineSource ctx core a p.ts false none with
    | (.data d _, u) => (.data d.toNat, u)
    | (.waits, u) => (.waits, u)
    | (.bad, u) => (.fault (if !a.scratch && u.keyGone ctx then Code.keyGone else Code.dataErr) va, u)
    | (.dropped, u) => (.fault Code.overRead va, u)

/-- n consecutive lines. -/
def State.slabLines (s : State) (p : Product) (va : Nat) : Nat → Slab × State
  | 0 => (.data 0, s)
  | n + 1 =>
    match s.slabLine p va with
    | (.data d, t) => match t.slabLines p (va + 128) n with
      | (.data r, u) => (.data (d + 2 ^ 1024 * r), u)
      | x => x
    | x => x

/-- R181, R191: n bytes of a panel or scale array, watched unless the stop before this K-step has been taken. -/
def State.slabRead (s : State) (p : Product) (va n : Nat) : Slab × State :=
  let hit := if s.watching p.wid && p.seen != some p.nextK then s.watchSpan (s.ctxOf p.wid) (s.blockOf p.wid) va n true false else none
  match hit with
  | some (x, k) => (.watch k x, s)
  | none =>
    match s.slabLines p (va / 128 * 128) ((va + n - 1) / 128 + 1 - va / 128) with
    | (.data v, t) => (.data (v / 256 ^ (va % 128) % 256 ^ n), t)
    | x => x

/-- The first stop of a list of reads, or all of them. -/
def State.slabReads (s : State) (p : Product) : List (Nat × Nat) → Except Slab (List Nat) × State
  | [] => (.ok [], s)
  | (va, n) :: rest =>
    match s.slabRead p va n with
    | (.data v, t) => match t.slabReads p rest with
      | (.ok l, u) => (.ok (v :: l), u)
      | x => x
    | (x, t) => (.error x, t)

/-- The scale bytes that a K-step needs of a panel of `count` columns or rows, those from `first` on. -/
def scaleSpans (d : BitVec 256) (ptr step width first count : Nat) : List (Nat × Nat) :=
  if !obScaled d then []
  else
    let k := kappa (obFormat d)
    let b0 := step * k / obBlock d
    let b1 := (step * k + k - 1) / obBlock d
    (List.range (b1 + 1 - b0)).map fun i => (ptr + (b0 + i) * width + first, count)

/-- R181: what the next K-step of a warp's MMAT reads: its A slab, its B slab, and their scale bytes. -/
def mmatSpans (p : Product) (a b : BitVec 256) : List (Nat × Nat) × List (Nat × Nat) :=
  let d := p.desc
  let tr := p.tile / mmatCols d
  let tc := p.tile % mmatCols d
  let k := p.nextK
  let za := chunkSize (obFormat a)
  let zb := chunkSize (obFormat b)
  let P := panelCols b
  ([(mmatA d + (k * mmatRows d + tr) * 32 * za, 32 * za), (mmatB d + (k * mmatCols d + tc) * P * zb, P * zb)],
   scaleSpans a (mmatField d 191 136) k (mmatRows d * 32) (32 * tr) 32 ++ scaleSpans b (mmatField d 255 200) k (mmatCols d * P) (tc * P) P)

/-- Bytes written into the ring of a staging range, in pieces of 64. -/
def State.stage (s : State) (q first : Nat) (d : BitVec 256) (step v : Nat) : State :=
  let base := step % ringSlabs d * slabBytes d
  (List.range (slabBytes d / 64)).foldl (fun t i =>
    let off := base + 64 * i
    match (ringLines d)[off / 128]? with
    | some l =>
      let key := obKey q (first + l)
      let line := mergeLine (Tab.getD t.mem.opbuf key 0) (lineValue (off % 128) 64 (v / 256 ^ (64 * i))) (byteMask (off % 128) 64)
      { t with mem := { t.mem with opbuf := Tab.set 0 t.mem.opbuf key line } }
    | none => t) s

/-- Changes the product of a warp that belongs to a team. -/
def State.modTeam (s : State) (q team : Nat) (f : Product → Product) : State :=
  s.modQuarter q fun x => { x with fabric := x.fabric.map fun p => if p.kind = .mmat ∧ p.team = team then f p else p }

/-- R181: one warp of the team reads and stages its slabs, and its K-step enters the fabric. -/
def State.stageMmat (s : State) (q : Nat) (p : Product) : Except Slab State × State :=
  match (s.warp? p.wid).bind fun w => (w.record? (recA p.f)).bind fun a => (w.record? (p.f.b.toNat % 8)).map fun b => (a, b) with
  | none => (.error .waits, s)
  | some (a, b) =>
    let (slabs, scales) := mmatSpans p a.desc b.desc
    match s.slabReads p (slabs ++ scales) with
    | (.error x, t) => (.error x, t)
    | (.ok vs, t) =>
      let na := (scaleSpans a.desc 0 p.nextK 0 0 32).length
      let codes := vs.drop 2
      let t1 := t.stage q (planeFirst a.desc (p.plane (recA p.f))) a.desc p.nextK (vs.getD 0 0)
      let t2 := t1.stage q (planeFirst b.desc (p.plane (p.f.b.toNat % 8))) b.desc p.nextK (vs.getD 1 0)
      let u := t2.modTeam q p.team fun x =>
        { x with inFabric := true, aScales := packNat (8 * 32) (codes.take na), bScales := packNat (8 * panelCols b.desc) (codes.drop na) }
      (.ok u, u)

/-- R191: a stop of a panel read traps every warp of the team, each with its MMAT suspended before this K-step. -/
def State.teamTrap (s : State) (team : List (Nat × Product)) (code : BitVec 16) (info : BitVec 64) (addr : Nat) : State :=
  let s1 := match team with
    | (_, p) :: _ => if code = Code.watch then s.recordWatch (s.coreOf p.wid) (s.ctxOf p.wid) (some p.wid) info.toNat false addr else s
    | [] => s
  team.foldl (fun t (q, p) =>
    let t1 := t.modTeam q p.team fun x => { x with seen := some x.nextK }
    (t1.modWarp p.wid fun w => if w.trap.isNone then { w with trap := some ⟨code, 0, info, 0, 0, []⟩ } else w).tryEnter p.wid) s1

/-- R181, R330, R332: what a panel read that gives no data leads to. -/
def State.slabStop (s : State) (team : List (Nat × Product)) (p : Product) (x : Slab) : State :=
  let ctx := s.ctxOf p.wid
  let die := dieOf (s.coreOf p.wid)
  match x with
  | .data _ | .waits => s
  | .replay page =>
    if s.host.faults.any fun f => f.ctx == ctx && f.page == page && f.kind == .read && f.die == die then s
    else s.joinFault ctx page .read die 1 0 0
  | .fault c a =>
    if fatalCode c then s.fatal (s.faultRecord p.wid [] ⟨c, BitVec.ofNat 64 a⟩ p.pc) 0 c (a / 65536)
    else s.teamTrap team c 0 a
  | .watch k a => s.teamTrap team Code.watch (BitVec.ofNat 64 k) a

/-- The products of a team that stand at the head of their queues, by quarter. -/
def State.teamHeads (s : State) (p : Product) : List (Nat × Product) :=
  s.quarters.filterMap fun (q, x) => match x.fabric with
    | h :: _ => if h.kind = .mmat ∧ h.team = p.team then some (q, h) else none
    | [] => none

/-- R181: the next K-step of a whole team: every slab is read before any is staged. -/
def State.startTeam (s : State) (p : Product) : State :=
  let team := s.teamHeads p
  let ready := team.all fun (_, x) => !x.inFabric && x.nextK == p.nextK && (s.warp? x.wid).any fun w => w.trap.isNone || s.holdsSlot x.wid w
  if team.length ≠ mmatRows p.desc * mmatCols p.desc ∨ !ready then s
  else
    let (r, t) := team.foldl (fun (r : Option (Product × Slab) × State) (q, x) =>
      match r with
      | (some y, t) => (some y, t)
      | (none, t) => match t.stageMmat q x with
        | (.ok u, _) => (none, u)
        | (.error y, u) => (some (x, y), u)) (none, s)
    match r with
    | none => t
    | some (x, y) => { t with warps := s.warps, quarters := s.quarters, mem := { t.mem with opbuf := s.mem.opbuf } }.slabStop team x y

/-! ### K-steps (R168, R176 to R178) -/

/-- R189: no K-step of a warp begins once its trap is taken up: its products are to be suspended. A run that holds the slot ends first. -/
def State.stopsProducts (s : State) (wid : Nat) : Bool :=
  (s.warp? wid).any fun w => w.trap.isSome && !s.holdsSlot wid w

/-- KSTEP_START, R168, R189: the next K-step of the quarter's oldest product enters the fabric. -/
def execKstepStart (q : Nat) (s : State) : Out :=
  match (s.quarter q).fabric with
  | [] => .next s
  | p :: _ =>
    if p.inFabric || s.stopsProducts p.wid then .next s
    else if p.kind = .mmat then .next (s.startTeam p)
    else .next (s.modQuarter q fun x => { x with fabric := match x.fabric with | h :: rest => { h with inFabric := true } :: rest | [] => [] })

/-- The scaled elements of row or column j of an MMAT slab in the staging ring. -/
def State.stagedValues (s : State) (q first : Nat) (d : BitVec 256) (step j scales : Nat) : List Real :=
  let fmt := obFormat d
  let z := chunkSize fmt
  let off := step % ringSlabs d * slabBytes d + j * z
  let chunk := s.obRead q (first + (ringLines d).getD (off / 128) 0) (off % 128) z
  let l := chunkValues fmt chunk (s.obEntry q first d)
  let b0 := step * kappa fmt / obBlock d
  if obScaled d then scaleBy fmt (obBlock d) step (fun b => scales / 256 ^ ((b - b0) * obCount d + j) % 256) l else l

/-- The chunk of row or column j, of an integer product. -/
def State.stagedChunk (s : State) (q first : Nat) (d : BitVec 256) (step j : Nat) : Nat :=
  let z := chunkSize (obFormat d)
  let off := step % ringSlabs d * slabBytes d + j * z
  s.obRead q (first + (ringLines d).getD (off / 128) 0) (off % 128) z

/-- The elements of a column or row of a record at the product's K-step. -/
def State.recordValues (s : State) (q : Nat) (p : Product) (d : BitVec 256) (first j scales : Nat) : List Real :=
  if p.kind = .mmat then s.stagedValues q first d p.nextK j scales else s.panelValues q first d p.nextK j

def State.recordInts (s : State) (q : Nat) (p : Product) (d : BitVec 256) (first j : Nat) : List Int :=
  chunkInts (if p.kind = .mmat then s.stagedChunk q first d p.nextK j else s.panelChunk q first d p.nextK j)

/-- R177: one accumulator after a K-step: a single rounding of the exact sum. -/
def accStep (c : Word) (t : Real) (a b : List Real) : Word :=
  BitVec.ofNat 32 (roundTo fp32 .rne false (Real.sum .rne (fp32.value c.toNat :: (a.zip b).map fun (x, y) => (x.mul y).mul t)))

/-- R178. -/
def accStepInt (c : Word) (a b : List Int) : Word :=
  BitVec.ofInt 32 (clampInt (c.toInt + (a.zip b).foldl (fun n (x, y) => n + x * y) 0) (-2 ^ 31) (2 ^ 31 - 1))

/-- Writes registers of a thread from a list, from a number on. -/
def Thread.setRow (t : Thread) (r : Nat) : List Word → Thread
  | [] => t
  | x :: rest => (t.setReg r x).setRow (r + 1) rest

/-- The rows of a group whose thread executes. -/
def Product.rowsOf (p : Product) (g : Nat × Nat × Nat) : List Nat := (lineRange g.1 g.2.1).filter fun m => p.rows.getLsbD m

/-- R177, R178: one K-step of one group. -/
def State.accGroup (s : State) (q : Nat) (w : Warp) (p : Product) (g : Nat × Nat × Nat) : State :=
  match w.record? g.2.2 with
  | none => s
  | some rb =>
    let f := p.f
    let b := rb.desc
    let firstB := planeFirst b (p.plane g.2.2)
    let n0 := firstColumn f
    let ra := if fromRegs f then none else w.record? (recA f)
    let cols := List.range (panelCols b)
    let old (m n : Nat) : Word := if p.nextK = 0 ∧ clears f then 0 else s.reg ⟨p.wid, m⟩ (128 + n0 + n)
    let rows : List (Nat × List Word) :=
      if obFormat b = fmtI8 then
        let bs := cols.map fun j => s.recordInts q p b firstB j
        (p.rowsOf g).map fun m =>
          let a := match ra with
            | some r => s.recordInts q p r.desc (planeFirst r.desc (p.plane (recA f))) m
            | none => chunkInts (packNat 32 ((Tab.getD p.regA m []).map (·.toNat)) / 256 ^ (16 * p.nextK) % 256 ^ 16)
          (m, (cols.zip bs).map fun (j, x) => accStepInt (old m j) a x)
      else
        let ta : Real := match ra with | some r => fp32.value (obTscale r.desc) | none => .num ⟨false, 1, 0⟩
        let t := ta.mul (fp32.value (obTscale b))
        let bs := cols.map fun j => s.recordValues q p b firstB j p.bScales
        (p.rowsOf g).map fun m =>
          let a := match ra with
            | some r => s.recordValues q p r.desc (planeFirst r.desc (p.plane (recA f))) m p.aScales
            | none => registerValues f.ty.toNat p.steps p.nextK (Tab.getD p.regA m []) (s.obEntry q firstB b)
          (m, (cols.zip bs).map fun (j, x) => accStep (old m j) t a x)
    rows.foldl (fun t (m, l) => t.modThread ⟨p.wid, m⟩ (·.setRow (128 + n0) l)) s

/-- KSTEP_WRITE, R168: the K-step in the fabric is written; the last one retires the instruction. -/
def execKstepWrite (q : Nat) (s : State) : Out :=
  match (s.quarter q).fabric with
  | [] => .next s
  | p :: _ =>
    match p.inFabric, s.warp? p.wid with
    | true, some w =>
      let s1 := p.groups.foldl (fun t g => t.accGroup q w p g) s
      if p.nextK + 1 = p.steps then
        .next ((s1.countDown (countsOf [p.wid] p.flag)).modQuarter q fun x => { x with fabric := x.fabric.drop 1 })
      else
        .next (s1.modQuarter q fun x => { x with fabric := match x.fabric with
          | h :: rest => { h with inFabric := false, nextK := h.nextK + 1 } :: rest
          | [] => [] })
    | _, _ => .next s

/-! ### Epilogue (R182 to R186, R188) -/

/-- R167: columns of a warp, in the lanes given, that a product or an outstanding result has yet to write. -/
def State.columnsHeld (s : State) (l : List Member) (n0 n : Nat) : Bool :=
  l.any fun m => (List.range n).any fun i => s.columnBusy m.wid (n0 + i) || s.pendingResult m (128 + n0 + i)

def State.regsHeld (s : State) (l : List Member) (r n : Nat) : Bool := l.any fun m => (List.range n).any fun i => s.pendingResult m (r + i)

/-- An epilogue instruction on the columns from n0: its mode, its faults, its hold, then its effect. `regs`: the vector registers it
names, which a warp in vector mode may not have (R10); `all`: every lane is read. -/
def opEpilogue (f : X3) (cycles n0 n : Nat) (bad : Option (BitVec 16)) (regs : Nat × Nat) (all : Bool) (body : Env → State → State)
    (s : State) : State :=
  s.issue { shapeX3 8 f [] with place := .leading, cycles := cycles, named := (lineRange regs.1 regs.2).map fun r => (r, 1) } fun e s =>
    let lanes := if all then e.members else e.exec
    if !e.inMatrix s then .fault (allCauses e.exec Code.modeState 0) 0
    else match bad with
    | some c => .fault (allCauses e.exec c 0) 0
    | none => if s.columnsHeld lanes n0 n || s.regsHeld lanes regs.1 regs.2 then .hold s else .done (body e s)

def boundFault (b : Bool) : Option (BitVec 16) := if b then some Code.mmBound else none

/-- R183. -/
def opAclr (f : X3) (s : State) : State :=
  let n0 := firstColumn f
  let n := f.c.toNat
  opEpilogue f 1 n0 n (boundFault (decide (128 < n0 + n))) (0, 0) false
    (fun e s => e.exec.foldl (fun t m => t.modThread m (·.setRow (128 + n0) (List.replicate n 0))) s) s

/-- R184. -/
def opAscale (f : X3) (s : State) : State :=
  let n0 := firstColumn f
  let n := f.c.toNat
  let col := f.scope.getLsbD 0
  let k := if col then (n + 31) / 32 else 1
  opEpilogue f 2 n0 n (boundFault (decide (128 < n0 + n) || decide (128 < f.a.toNat + k))) (f.a.toNat, k) col
    (fun e s => e.exec.foldl (fun t m =>
      let by_ (j : Nat) : Word := if col then s.reg ⟨m.wid, j % 32⟩ (f.a.toNat + j / 32) else s.reg m f.a.toNat
      t.modThread m (·.setRow (128 + n0) ((List.range n).map fun j =>
        BitVec.ofNat 32 (fMul fp32 {} (s.reg m (128 + n0 + j)).toNat (by_ j).toNat)))) s) s

/-- R185: one element converted. -/
def acvtElement (f : X3) (v : Word) : Nat :=
  if f.ty.toNat = fmtI8 then (clampInt v.toInt (-128) 127 % 256).toNat
  else convert 2 f.ty.toNat (x3Modes f) v.toNat

/-- R185. -/
def opAcvt (f : X3) (s : State) : State :=
  let n0 := f.a.toNat - 128
  let n := f.c.toNat
  let w := typeBits f.ty.toNat
  let k := n * w / 32
  let bad := if n % (32 / w) ≠ 0 then some Code.mmFormat else boundFault (decide (128 < n0 + n) || decide (128 < f.d.toNat + k))
  opEpilogue f 2 n0 n bad (f.d.toNat, k) false
    (fun e s => e.exec.foldl (fun t m =>
      t.setRegs m f.d.toNat (packNat w ((List.range n).map fun j => acvtElement f (s.reg m (128 + n0 + j)))) k) s) s

/-- R186. -/
def opAtrn (f : X3) (s : State) : State :=
  let n0 := f.a.toNat - 128
  opEpilogue f 4 n0 32 none (f.d.toNat, 32) true
    (fun e s => e.exec.foldl (fun t m =>
      t.modThread m (·.setRow f.d.toNat ((List.range 32).map fun k => s.reg ⟨m.wid, k⟩ (128 + n0 + m.lane)))) s) s

/-- R188. -/
def opAwait (f : X3) (s : State) : State :=
  s.issue (shapeX3 8 f []) fun e s =>
    if (warpsOf e.exec).any fun w => (s.warp? w).any (·.mmode) && !(s.productsOf w).isEmpty then .hold s else .done s

/-! ### Meanings -/

/-- MODE_M, R161. -/
def execModeM (s : State) : Out := .next (opMode 4 (s.form32 1 0 0) s)

/-- MODE_V, R161. -/
def execModeV (s : State) : Out := .next (opMode 4 (s.form32 0 0 0) s)

/-- MODE_W, R161. -/
def execModeW (f : X3) (s : State) : Out := .next (opMode 8 f s)

/-- MMA, R179. -/
def execMma (f : X3) (s : State) : Out := .next (opMma f s)

/-- MMAG, R180. -/
def execMmag (f : X3) (s : State) : Out := .next (opMmag f s)

/-- MMAT, R181. -/
def execMmat (f : X3) (s : State) : Out := .next (opMmat f s)

/-- ACLR, R183. -/
def execAclr (f : X3) (s : State) : Out := .next (opAclr f s)

/-- ASCALE, R184. -/
def execAscale (f : X3) (s : State) : Out := .next (opAscale f s)

/-- ACVT, R185. -/
def execAcvt (f : X3) (s : State) : Out := .next (opAcvt f s)

/-- ATRN, R186. -/
def execAtrn (f : X3) (s : State) : Out := .next (opAtrn f s)

/-- AWAIT, R188. -/
def execAwait (f : X3) (s : State) : Out := .next (opAwait f s)

end Sys2Proof.Machine
end

