-- ==== Sys2Proof/Machine/MemoryEvents.lean ====
section
/-! DEFINITION. Steps of logical time (R232 to R234), of dirty bytes (R236) and of die-exclusive leases (R240). -/

namespace Sys2Proof.Machine

open Sys2Proof

/-! ### Logical time -/

/-- PTS_CREEP, R233: a boundary of 1,024 cycles while the warp is resident. -/
def execPtsCreep (wid : Nat) (s : State) : Out :=
  match s.warp? wid with
  | some w => if w.place?.isSome ∧ w.crept < s.periods then .next (s.putWarp wid { w with pts := w.pts + 1, crept := w.crept + 1 }) else .next s
  | none => .next s

/-- A clock that the package has. -/
def clockExists : Clock → Bool
  | .home q => decide (q < 4)
  | .l1 c => decide (c < 1536)
  | .fused c k => decide (c < 16) && decide (k < 96)
  | .l2 d k => decide (d < 4) && decide (k < 96)

/-- CLOCK_TICK, R232: one tick in each period of 1,024 cycles. -/
def execClockTick (clk : Clock) (s : State) : Out :=
  let k := clockKey clk
  let n := Tab.getD s.ticks k 0
  if clockExists clk ∧ n < s.periods then
    .next (({ s with ticks := Tab.put s.ticks k (n + 1) } : State).bump k (s.clock k + 1))
  else .next s

/-- LOCAL_AGEING_SWEEP, R234: the times that a point holds, against the multiple its clock crossed last. -/
def execLocalAgeingSweep (clk : Clock) (s : State) : Out :=
  match clk with
  | .home _ => .next s
  | _ => .next (s.sweep (clockKey clk) (sweepMark (s.clock (clockKey clk))))

/-- HOME_AGEING_SWEEP, R234. -/
def execHomeAgeingSweep (qd : Nat) (s : State) : Out :=
  if qd < 4 then .next (s.sweep (homeClockKey qd) (sweepMark (s.clock (homeClockKey qd)))) else .next s

/-! ### Dirty bytes -/

/-- One write-back with no releasing warp. -/
def State.moveOut (s : State) (p line : Nat) : State :=
  match s.copy? p line with
  | none => s
  | some c =>
    if c.dirty = 0 then s
    else match s.writeBack p line none false with
      | (some t, _) => t
      | (none, t) => t

/-- R202: a point may evict a line at any time: dirty bytes are written back, and a clean copy goes, but for one under a lease of its die
(log entry 38). -/
def State.evict (s : State) (p line : Nat) : State :=
  match s.copy? p line with
  | none => s
  | some c =>
    if c.dirty = 0 ∧ ¬(3000 ≤ p ∧ (s.home line).dir = .diex (p - 3000)) then s.dropCopy p line else s.moveOut p line

/-- WRITE_BACK, R202, R236: a point may write back the dirty bytes of a line, or evict it once clean, at any time. -/
def execWriteBack (pt : Point) (line : Nat) (s : State) : Out := .next (s.evict (pointNum pt) line)

/-- DIRTY_AGE_WRITEBACK, R236, R255: dirty bytes 65,536 cycles old. -/
def execDirtyAgeWriteback (pt : Point) (line : Nat) (s : State) : Out :=
  match s.copy? (pointNum pt) line with
  | some c => if 65536 ≤ s.now - c.dirtySince then .next (s.moveOut (pointNum pt) line) else .next s
  | none => .next s

/-! ### Die-exclusive leases -/

/-- R240: the context of an access that needs the lease: an atomic at the die's slice, or dirty bytes of a point of the die. -/
def State.wantsDiex (s : State) (die line : Nat) : Option Nat :=
  match s.mem.homeReqs.find? fun (_, h) => h.line == line && h.point == some (l2Point die) with
  | some (_, h) => some h.ctx
  | none => (s.mem.copies.find? fun (k, c) =>
      k % 2 ^ 49 == line && decide (k / 2 ^ 49 < 3000) && pointDie (k / 2 ^ 49) == die && c.dirty != 0).map (·.2.key)

/-- DIEX_LEASE_GRANT, R240. -/
def execDiexLeaseGrant (die line : Nat) (s : State) : Out :=
  match s.wantsDiex die line with
  | some ctx => match s.grantDiex die line ctx with | (some t, _) => .next t | (none, t) => .next t
  | none => .next s

/-- R240: a request for the line that the holder of the lease does not serve. -/
def State.wantsRecall (s : State) (line die : Nat) : Bool :=
  (s.mem.reqs.any fun (_, q) => q.line == line && decide (q.stage = .home) && dieOf q.core != die) ||
  s.mem.homeReqs.any fun (_, h) => h.line == line && h.point != some (l2Point die)

/-- RECALL, R240, R381. -/
def execRecall (line : Nat) (s : State) : Out :=
  match (s.home line).dir with
  | .diex d => if s.wantsRecall line d then .next (s.recall line).answerDoorbells else .next s
  | _ => .next s

end Sys2Proof.Machine
end

