-- ==== Sys2Proof/Machine/Patch.lean ====
section
/-! DEFINITION. APATCH: a box of accumulators written from vector registers, in the warp's own grid or in that of a linked
peer (R187). -/

namespace Sys2Proof.Machine

open Sys2Proof

/-- R187: the warp of a block with an index. -/
def State.warpAt (s : State) (blk index : Nat) : Option Nat :=
  (s.warps.find? fun (_, w) => w.block == blk && w.index == index && w.resident).map (·.1)

/-- R187: every live thread of a warp waits in BWAIT at an object for a phase that has not completed, or a trap has stopped them all
at one (log entry 21). -/
def State.linked (s : State) (wid core off : Nat) : Bool :=
  let ws := s.barrierWaits core off
  (s.warp? wid).any fun w => !w.liveLanes.isEmpty && ((w.liveLanes.all fun l =>
    ws.any fun (_, x, f) => x.members.contains ⟨wid, l⟩ && !s.phaseOver core off f ⟨wid, l⟩) ||
    match s.barrierStop wid w with
    | some (c, o, token) => c == core && o == off && (s.barrier core off).gen == token
    | none => false)

/-- R187: the warp whose grid is written, or the fault that names none. -/
def State.patchTarget (s : State) (f : X3) (m : Member) (index : Nat) : Except (BitVec 16) Nat :=
  if !f.scope.getLsbD 2 then .ok m.wid
  else match s.warpAt (s.blockOf m.wid) index, s.ownObject m (s.pair m f.c.toNat).toNat 16 with
  | some w, o =>
    if !(s.warp? w).any (·.mmode) then .error Code.modeState
    else match o with
    | some (core, off) => if s.linked w core off then .ok w else .error Code.patchLink
    | none => .error Code.patchLink
  | none, _ => .error Code.patchLink

/-- R187: one accumulator after a patch with v. -/
def patchValue (op : Nat) (c v : Word) : Word :=
  match op with
  | 0 => v
  | 1 => BitVec.ofNat 32 (fAdd fp32 {} c.toNat v.toNat)
  | 2 => BitVec.ofNat 32 (fMul fp32 {} c.toNat v.toNat)
  | _ => 0

/-- R187: the rows of the box whose thread executes, each patched in the target's grid. -/
def State.patch (s : State) (f : X3) (exec : List Member) (rows : Word) (target n0 n : Nat) : State :=
  (exec.filter fun m => rows.getLsbD m.lane).foldl (fun t m =>
    t.modThread ⟨target, m.lane⟩ (·.setRow (128 + n0) ((List.range n).map fun j =>
      patchValue (f.scope.toNat % 4) (s.reg ⟨target, m.lane⟩ (128 + n0 + j)) (s.reg m f.a.toNat)))) s

/-- R187. Nonzero (b + 1)[12:8] without .peer raises MMFORMAT: the rule says that the field is zero then and names no fault (DESIGN
CHOICE, log entry 102). -/
def opApatch (f : X3) (s : State) : State :=
  let n0 := firstColumn f
  let peer := f.scope.getLsbD 2
  s.issue { shapeX3 8 f [] with place := .leading, cycles := if peer then 8 else 2, named := r1 f.a :: r2 f.b :: if peer then [r2 f.c] else [] } fun e s =>
    let m := e.first
    if !e.inMatrix s then .fault (allCauses e.exec Code.modeState 0) 0
    else if s.pendingAny m [r2 f.b] || (peer && s.pendingAny m [r2 f.c]) || s.regsHeld e.exec f.a.toNat 1 then .hold s
    else
      let b := s.reg m (f.b.toNat + 1)
      let n := b.toNat % 256
      if n = 0 ∨ 128 < n ∨ b.toNat / 2 ^ 13 ≠ 0 ∨ (!peer ∧ b.toNat / 256 ≠ 0) then .fault (allCauses e.exec Code.mmFormat 0) 0
      else if 128 < n0 + n then .fault (allCauses e.exec Code.mmBound 0) 0
      else match s.patchTarget f m (field b.toNat 12 8) with
      | .error c => .fault (allCauses e.exec c 0) 0
      | .ok w =>
        if s.columnsHeld (e.exec.map fun m => ⟨w, m.lane⟩) n0 n then .hold s
        else .done (s.patch f e.exec (s.reg m f.b.toNat) w n0 n)

/-- APATCH, R187. -/
def execApatch (f : X3) (s : State) : Out := .next (opApatch f s)

end Sys2Proof.Machine
end

