-- ==== Sys2Proof/Machine/Preempt.lean ====
section
/-! DEFINITION. Trap entry as a step of its own (R311, R315), pre-emption (R323 to R326), forced saves and re-admission, the saving of
a block's scratchpad (R318, R324), the parking write (R301), and the end of a context's work (R332). -/

namespace Sys2Proof.Machine

open Sys2Proof

/-- TRAP_ENTRY, R311, R315, R323, R353: a trap that waits to come about, or what a run boundary brings. -/
def execTrapEntry (wid : Nat) (s : State) : Out :=
  match s.warp? wid with
  | none => .next s
  | some w =>
    if s.ctxEnded (s.ctxOf wid) then .next s
    else if w.trap.isSome then .next (s.tryEnter wid)
    else if w.level == 0 && !w.engineWatches.isEmpty then .next (s.takeWatch wid)
    else .next (s.takePreempt wid)

/-! ### Requests (R323, R325) -/

def Launch.grace (l : Launch) : Nat := let g := l.get 479 464; (if g = 0 then 50 else g) * usTime

/-- The warps of a launch. -/
def State.warpsOfLaunch (s : State) (id : Nat) : List (Nat × Warp) :=
  s.warps.filter fun (_, w) => (s.block? w.block).any fun b => b.launch == id

/-- PREEMPT_REQUEST, R323: PREEMPT is raised in every warp that is on a core; a warp without a handler is to be saved at once. -/
def execPreemptRequest (id : Nat) (s : State) : Out :=
  match s.launch? id with
  | none => .next s
  | some l =>
    if l.preempted.isSome || l.status = .complete || l.status = .fatal then .next s
    else
      let s1 := s.modLaunch id fun x => { x with preempted := some s.elapsed }
      .next ((s.warpsOfLaunch id).foldl (fun t (i, w) =>
        if w.resident then
          (if l.get 375 320 = 0 then t.modWarp i fun x => { x with graceOver := true }
           else (t.modWarp i fun x => { x with preempt := true }).takePreempt i)
        else t) s1)

/-- LAUNCH_RESUME, R323. -/
def execLaunchResume (id : Nat) (s : State) : Out := .next (s.modLaunch id fun x => { x with preempted := none })

/-- GRACE_EXPIRY, R325: the grace period has ended for the warps that have not completed PREACK. -/
def execGraceExpiry (id : Nat) (s : State) : Out :=
  match s.launch? id with
  | none => .next s
  | some l =>
    match l.preempted with
    | none => .next s
    | some since =>
      if s.elapsed < since + l.grace then .next s
      else .next ((s.warpsOfLaunch id).foldl (fun t (i, w) =>
        if w.resident && !w.acknowledged then t.modWarp i fun x => { x with graceOver := true } else t) s)

/-! ### Saving a warp (R318, R324, R325) -/

/-- Every register block of a warp. -/
def Warp.allMask (w : Warp) : Nat := 2 ^ (w.alloc / 16) - 1

/-- R318, R325: header, records, registers and lines, with FORCED. -/
def State.wholeImage (s : State) (wid : Nat) (w : Warp) : List (Nat × Line × LineMask) :=
  let base := s.saveSlot wid
  headLines w base w.allMask true false true ++ regLines w base w.allMask (Config.choices s.turn) ++ s.bufferImage w base

/-- Nothing of the warp that would write a register or an operand-buffer line is under way, deferred loads apart. -/
def State.settled (s : State) (wid : Nat) (w : Warp) : Bool :=
  (s.opsOf wid).all (fun (i, _) => w.defers i) && (s.quarter w.quarterOf).fabric.all (fun p => p.wid != wid) &&
  (s.quarter w.quarterOf).sfu.all fun e => (e.waiting ++ e.served).all fun l => l.wid != wid

/-- The lines are written and the warp leaves its core; or what stands in the way comes about. What the warp has stored goes home
first, wherever it goes on (R9, R28). -/
def State.writeImage (s t : State) (wid : Nat) (w : Warp) (lines : List (Nat × Line × LineMask)) (done : State → State) : State :=
  match t.storeLines wid lines with
  | (.ok (), u) => match u.releaseHome w.core (some wid) with
    | (some v, _) => done v
    | (none, v) => s.heldUp .busy v
  | (.error (.fault c a), u) => u.fatal (s.faultRecord wid [] ⟨c, a⟩ w.pcOf) 0 c (a.toNat / 65536)
  | (.error x, u) => s.heldUp x u

/-- R325: both frames are written; one that a handler in force came by is in memory and stays as it stands (DEDUCED, log entry 99). -/
def State.freeFrames (s : State) (wid : Nat) (w : Warp) : List (Nat × Line × LineMask) :=
  ([1, 2].filter fun lvl => decide (w.level < lvl)).flatMap fun lvl => s.frameLines wid lvl w ⟨Code.preempt, 1, 0, 0, 0, []⟩

/-- R325: the whole context of a stopped warp. Its loads on absent lines and its products stop as at a trap of the next level. -/
def State.forceSave (s : State) (wid : Nat) (w : Warp) : State :=
  let lvl := w.level + 1
  let t := (((s.drainSfu wid).leaveRendezvous wid).deferLoads wid lvl).suspendProducts wid lvl
  match t.warp? wid with
  | none => s
  | some x =>
    s.writeImage t wid w (t.wholeImage wid x ++ t.freeFrames wid x) fun u =>
      ((u.leaveCore wid (.saved true)).modWarp wid fun y => { y with graceOver := false }).flushLanes w.core (u.ctxOf wid)

/-- R324: what hardware does once every live thread has executed PREACK and stands at a run boundary. -/
def State.ackSave (s : State) (wid : Nat) (w : Warp) : State :=
  let base := s.saveSlot wid
  s.writeImage s wid w (headLines w base 0 true true false ++ s.bufferImage w base) fun u =>
    (u.leaveCore wid (.saved false)).flushLanes w.core (u.ctxOf wid)

/-- FORCED_SAVE_COMPLETE, R324, R325: the save of a warp after PREACK, or by force at its next run boundary. -/
def execForcedSaveComplete (wid : Nat) (s : State) : Out :=
  match s.warp? wid with
  | none => .next s
  | some w =>
    if !w.resident || s.ctxEnded (s.ctxOf wid) || s.holdsSlot wid w then .next s
    else if w.graceOver then (if s.drained wid w then .next (s.forceSave wid w) else .next s)
    else if w.acknowledged && w.threads.all (fun (_, t) => !t.live || (t.status = .running && t.rhdr == 0)) && s.settled wid w then
      .next (s.ackSave wid w)
    else .next s

/-! ### A block's scratchpad (R318, R324) -/

/-- R318: the address of a block save slot. -/
def Queue.blockSlotAt (q : Queue) (k : Nat) : Nat := q.save.toNat + q.slots.toNat * 0x20000 + k * 0x82000

/-- R318: the state halfword of a scratchpad line. -/
def ScratchLine.halfword (x : ScratchLine) : Nat :=
  (match x.count with | .uncounted => 0 | .live n => n % 256 + place 8 1 | .dropped => place 8 2) +
  place 10 (if x.present then 1 else 0) + place 11 (if x.poison then 1 else 0)

def ScratchLine.ofImage (data h : Nat) : ScratchLine :=
  { data := BitVec.ofNat 1024 data, present := h.testBit 10, poison := h.testBit 11,
    count := match field h 9 8 with | 1 => .live (field h 7 0) | 2 => .dropped | _ => .uncounted }

/-- A warp holds no place on a core. -/
def Warp.away (w : Warp) : Bool := w.place?.isNone

/-- The lines of a block's allocation. -/
def Block.pad (b : Block) : List Nat := (List.range b.lines).map fun i => b.core * 4096 + b.firstLine + i

/-- No engine command, and no load of another block's warp, has still to do with the block's scratchpad. -/
def State.padQuiet (s : State) (bid : Nat) (b : Block) : Bool :=
  s.allTasks.all (fun (_, t) => t.block != bid && (match t.cmd with | .cpm _ => t.launch != b.launch | _ => true)) &&
  s.mem.ops.all fun (_, o) => o.lines.all (fun l => !b.pad.contains l) || o.dests.all fun d => b.warps.contains d.wid

/-- The object times of a range of offsets move with it. -/
def State.moveTimes (s : State) (fromOff toOff n : Nat) : State :=
  { s with objTimes := s.objTimes.foldl (fun t (k, v) =>
      if fromOff * 2048 ≤ k ∧ k < (fromOff + n) * 2048 then Tab.put (Tab.del t k) (k - fromOff * 2048 + toOff * 2048) v else t) s.objTimes }

/-- Where the object times of a saved block are kept. -/
def awayOffset (bid : Nat) : Nat := (1536 + bid) * 2 ^ 19

def Block.padOffset (b : Block) : Nat := b.core * 2 ^ 19 + b.firstLine * 128

/-- BLOCK_SCRATCHPAD_SAVE, R324: once every warp of the block has been saved, its scratchpad is written to its block slot and freed. -/
def execBlockScratchpadSave (bid : Nat) (s : State) : Out :=
  match s.block? bid with
  | none => .next s
  | some b =>
    match s.launch? b.launch with
    | none => .next s
    | some l =>
      match Tab.get? s.queues l.queue with
      | none => .next s
      | some q =>
        if l.preempted.isNone || b.saved || b.departed || s.ctxEnded l.ctx || !s.padQuiet bid b ||
            !b.warps.all (fun i => (s.warp? i).all Warp.away) then .next s
        else
          let base := q.blockSlotAt b.saveSlot
          let lines := b.pad.map s.scratchLine
          let data := (List.range b.lines).zip (lines.map fun x => x.data.toNat)
          let states := (List.range ((b.lines + 63) / 64)).map fun i => (i, packNat 16 (((lines.drop (64 * i)).take 64).map ScratchLine.halfword))
          let step (off : Nat) (t : State) (x : Nat × Nat) : Option State × State := t.ctxWrite l.ctx (base + off + 128 * x.1) 128 x.2
          match readyAll (step 0) s data with
          | (none, t) => .next t
          | (some t, _) =>
            match readyAll (step 0x80000) t states with
            | (none, u) => .next u
            | (some u, _) =>
              let u1 := (u.freshLines b.core b.firstLine b.lines).moveTimes b.padOffset (awayOffset bid) (b.lines * 128)
              .next (u1.modBlock bid fun x => { x with saved := true })

/-- What an outstanding load names in a block's scratchpad moves with it. -/
def Op.moved (b : Block) (core first : Nat) (o : Op) : Op :=
  let line (l : Nat) : Nat := if b.pad.contains l then core * 4096 + first + (l - (b.core * 4096 + b.firstLine)) else l
  { o with lines := o.lines.map line
           dests := o.dests.map fun d => if d.scratch then { d with pa := line (d.pa / 128) * 128 + d.pa % 128 } else d }

/-- The saved lines and states of a block, read back. -/
def State.readPad (s : State) (ctx base : Nat) : List Nat → Option (List Nat) × State
  | [] => (some [], s)
  | i :: rest =>
    match s.ctxRead ctx (base + 128 * i) 128 with
    | (none, t) => (none, t)
    | (some v, t) =>
      match t.readPad ctx base rest with
      | (some l, u) => (some (v :: l), u)
      | r => r

/-- R318, R324: a saved block's scratchpad on its new core; its race shadow is cleared. -/
def State.restorePad (s : State) (bid : Nat) (b : Block) (l : Launch) (core first q0 : Nat) : Option State × State :=
  match Tab.get? s.queues l.queue with
  | none => (none, s)
  | some q =>
    let base := q.blockSlotAt b.saveSlot
    match s.readPad l.ctx base (List.range b.lines) with
    | (none, t) => (none, t)
    | (some data, t) =>
      match t.readPad l.ctx (base + 0x80000) (List.range ((b.lines + 63) / 64)) with
      | (none, u) => (none, u)
      | (some states, u) =>
        let halves := packNat 1024 states
        let u1 := (u.freshLines core first b.lines).moveTimes (awayOffset bid) (core * 2 ^ 19 + first * 128) (b.lines * 128)
        let u2 := ((List.range b.lines).zip data).foldl (fun v (i, d) =>
          v.putScratch (core * 4096 + first + i) (ScratchLine.ofImage d (element 16 i halves))) u1
        let u3 := u2.modBlock bid fun x => { x with core := core, firstLine := first, q0 := q0, saved := false, shadow := [] }
        let u4 := u3.modCtx l.ctx fun c => { c with regions := c.regions.map fun (k, r) => (k, if r.block = bid then { r with core := core } else r) }
        let u5 : State := { u4 with mem := { u4.mem with ops := u4.mem.ops.map fun (k, o) =>
          (k, if o.dests.all fun d => b.warps.contains d.wid then o.moved b core first else o) } }
        (some u5, u5)

/-! ### Re-admission of a warp (R192, R233, R299, R324, R325) -/

/-- The place a warp of a block that is on its core would take: quarter, warp slot and register base. -/
def State.warpPlace (s : State) (w : Warp) (b : Block) : Option (Nat × Nat × Nat) :=
  let q := (b.q0 + w.index) % 4
  let h := s.heldIn b.core q
  match h.slot?, h.base? w.alloc with
  | some k, some base => some (q, k, base)
  | _, _ => none

/-- R319, R325: a suspended instruction takes its progress from its entry. -/
def Product.fromEntry (p : Product) (v : Nat) : Product :=
  { p with enc := BitVec.ofNat 64 v, pc := BitVec.ofNat 56 (field v 119 64), nextK := field v 141 128, planes := BitVec.ofNat 8 (field v 175 168),
           flag := if field v 163 160 < 12 then some (field v 163 160) else none }

/-- R322, R325: what a save stopped at a level goes on: counts, loads and products. -/
def State.goOn (s : State) (wid lvl : Nat) (entries : List Nat) : State :=
  match s.warp? wid with
  | none => s
  | some w =>
    let back := (w.suspended.filter (·.1 == lvl)).map (·.2)
    let back := if entries.isEmpty then back else (back.zip entries).map fun (p, v) => p.fromEntry v
    let s1 := s.modWarp wid fun w => { w with
      flags := (List.range 12).foldl (fun t f => Tab.set 0 t f (Tab.getD t f 0 + Tab.getD w.held (16 * lvl + f) 0)) w.flags
      held := w.held.filter fun (k, _) => k / 16 != lvl
      deferred := w.deferred.filter (·.1 != lvl)
      suspended := w.suspended.filter (·.1 != lvl) }
    s1.modQuarter w.quarterOf fun x => { x with fabric := requeue x.fabric back }

/-- R233, R234: the pts and ots of a warp that comes back. -/
def State.comeBack (s : State) (wid : Nat) : State :=
  let c := s.homeClocks
  s.modWarp wid fun w => { w with pts := maxs (clampTime c w.pts) c, ots := clampTime c w.ots, crept := s.periods }

/-- R301, R325: the context of a warp that now has a place, read back whole from its save slot. -/
def State.restoreWhole (s : State) (wid : Nat) (w : Warp) : Except Stop State × State :=
  let base := s.saveSlot wid
  match s.loadRegs wid base w.allMask with
  | (.error x, t) => (.error x, t)
  | (.ok regs, t) =>
    match t.loadBuffers wid base with
    | (.error x, u) => (.error x, u)
    | (.ok (records, lines), u) =>
      (.ok ((u.modWarp wid fun w => regs.foldl (fun w (n, x) => w.putRegs n x) w).putBuffers wid w.quarterOf records lines), u)

/-- R325: a warp saved by force goes on exactly where it stopped. -/
def State.resumeForced (s : State) (wid : Nat) (w : Warp) : Except Stop State × State :=
  match s.restoreWhole wid w with
  | (.error x, t) => (.error x, t)
  | (.ok t, _) =>
    let lvl := w.level + 1
    if lvl ≤ 2 then
      match t.loadVirtual wid (t.frameAt wid lvl) 128, t.loadVirtual wid (t.frameAt wid lvl + 128) 128 with
      | (.ok a, u), (.ok b, _) =>
        let v := a + place 1024 b
        let n := field v 282 280
        (.ok (u.goOn wid lvl ((List.range n).map fun i => v / 2 ^ (512 + 256 * i) % 2 ^ 256)), u)
      | (.error x, u), _ => (.error x, u)
      | _, (.error x, u) => (.error x, u)
    else (.ok (t.goOn wid lvl []), t)

/-- R324: a warp that acknowledged enters PREHND again, with its records and lines, V0 to V7 as its frame holds them, and every other
register zero; KIND and CODE of the frame become those of a resumption. -/
def State.resumeAcked (s : State) (wid : Nat) (w : Warp) : Except Stop State × State :=
  let base := s.saveSlot wid
  let frame := s.frameAt wid 1
  let lanes := w.threads.map (·.1)
  match s.loadBuffers wid base with
  | (.error x, t) => (.error x, t)
  | (.ok (records, lines), t) =>
    match t.loadLines wid (frame :: lanes.map fun l => frame + 0x200 + 128 * l) with
    | (.error x, u) => (.error x, u)
    | (.ok vs, u) =>
      let head := vs.headD 0
      let word := head / 2 ^ 18 % 2 ^ 6 * 2 ^ 18 + place 16 2 + Code.resume.toNat
      match u.storeVirtual wid frame (lineValue 0 3 word) (byteMask 0 3) with
      | (.error x, v) => (.error x, v)
      | (.ok (), v) =>
        let entry := BitVec.ofNat 56 (s.recField wid 375 320)
        let images := lanes.zip (vs.tail.map LaneImage.ofNat)
        let v1 := (v.putBuffers wid w.quarterOf records lines).modWarp wid fun w => { w with
          level := 1, frameKind := 2, part := 32
          threads := w.threads.map fun (l, t) => (l,
            if t.live then
              let x := (images.find? (·.1 == l)).map (·.2.regs)
              { t.inHandler entry ((t.causes.head?).getD ⟨0, 0⟩) s.now with
                causes := t.causes, acked := false
                regs := (List.range 8).foldl (fun r k => Tab.set 0 r k ((x.getD []).getD k 0)) [] }
            else t) }
        -- R317: PREHND is a run header, or BADTARGET is fatal at entry
        match v1.fetchHeader w.core (v1.ctxOf wid) entry.toNat with
        | .word h =>
          if !validHeader (h.extractLsb' 0 32) || entry.getLsbD 0 then (.error (.fault Code.badTarget (entry.zeroExtend 64)), v)
          else (.ok (v1.recordTrap wid entry Code.resume 2 false), v)
        | _ => (.ok (v1.recordTrap wid entry Code.resume 2 false), v)

/-- A saved warp takes a place on its block's core. -/
def State.readmitSaved (s : State) (wid core q k base : Nat) : Option State × State :=
  match s.warp? wid with
  | none => (some s, s)
  | some w =>
    let forced := w.residence = .saved true
    let t := (s.modWarp wid fun x => { x with residence := .resident core q k base }).comeBack wid
    match t.warp? wid with
    | none => (some s, s)
    | some x =>
      match (if forced then t.resumeForced wid x else t.resumeAcked wid x) with
      | (.ok u, _) =>
        if u.buffersFree wid x.quarterOf ((u.warp? wid).map (·.records) |>.getD []) then
          -- R328: replies that came while the warp was away
          let v := u.deliverServices (u.ctxOf wid)
          (some v, v)
        else (none, s)
      | (.error (.fault c a), u) => (none, u.fatal (s.faultRecord wid [] ⟨c, a⟩ w.pcOf) 0 c (a.toNat / 65536))
      | (.error y, u) => (none, s.heldUp y u)

def Warp.isSaved (w : Warp) : Bool := match w.residence with | .saved _ => true | _ => false

/-- R133, R299: the warps of a saved block come back together: the block takes a core as a new block does. -/
def State.readmitBlock (s : State) (bid : Nat) (b : Block) (l : Launch) : Option State × State :=
  match (List.range 1536).findSome? fun core => (s.admits b.launch l b.linear core true).map fun (x, q, ps) => (core, x, q, ps) with
  | none => (none, s)
  | some (core, first, q0, places) =>
    match s.changeMode (clusterOf core) l.fuse with
    | (none, t) => (none, t)
    | (some t, _) =>
      match t.restorePad bid b l core first q0 with
      | (none, u) => (none, u)
      | (some u, _) =>
        let back := (b.warps.zip places).filter fun (i, _) => (s.warp? i).any Warp.isSaved
        match readyAll (fun (v : State) (x : Nat × Nat × Nat × Nat) => v.readmitSaved x.1 core x.2.1 x.2.2.1 x.2.2.2) u back with
        | (some v, w) => (some v, w)
        | (none, w) => (none, if w.ctxEnded l.ctx then w else { s.heldUp .busy w with host := w.host })

/-- RESUME_ADMISSION, R324, R325: a saved warp of a launch that is not pre-empted is admitted again; the warps of a block whose
scratchpad was saved together. -/
def execResumeAdmission (wid : Nat) (s : State) : Out :=
  match s.warp? wid with
  | none => .next s
  | some w =>
    match s.block? w.block, s.launchOfWarp w with
    | some b, some l =>
      if !w.isSaved || l.preempted.isSome || s.ctxEnded l.ctx then .next s
      else if b.saved then .next (s.readmitBlock w.block b l).2
      else match s.warpPlace w b with
        | none => .next s
        | some (q, k, base) => .next ((s.readmitSaved wid b.core q k base).2)
    | _, _ => .next s

/-! ### Parking (R301) -/

/-- R341: why a thread of the warp waits. -/
def State.parkReason (s : State) (t : Thread) : Option Nat :=
  match t.status with
  | .service .. => some 3
  | .waiting id =>
    (Tab.get? s.waits id).bind fun x =>
      if !x.parks then none
      else some (match x.kind with | .launch .. => 0 | .join _ => 1 | .evwait _ => 2 | .retry (.serviceRoom ..) => 3 | _ => 4)
  | _ => none

/-- R328: the reply that a thread waits for has come. -/
def State.replied (s : State) (t : Thread) (ctx : Nat) : Bool :=
  match t.status, s.ctx? ctx with
  | .service seq _, some c => (Tab.get? c.svc seq.toNat).any fun e => c.groupDone e.first
  | _, _ => false

/-- R301: every live thread of a warp waits in a way that counts toward parking, and no result of it is pending. -/
def State.mayPark (s : State) (wid : Nat) (w : Warp) : Bool :=
  let live := (w.threads.map (·.2)).filter Thread.live
  !live.isEmpty && live.all (fun t => (s.parkReason t).isSome && !s.replied t (s.ctxOf wid)) && s.settled wid w && w.trap.isNone && !w.preempt && !w.graceOver

/-- PARK, R301: the parking write begins. The queues whose WATCH the warp has not taken restart (R353). -/
def execPark (wid : Nat) (s : State) : Out :=
  match s.warp? wid with
  | none => .next s
  | some w =>
    match w.residence with
    | .resident c q k b =>
      if s.mayPark wid w && !s.ctxEnded (s.ctxOf wid) then
        let reason := ((w.threads.find? fun (_, t) => t.live).bind fun (_, t) => s.parkReason t).getD 0
        let s1 := s.recordWarp wid 0x0C (reason + place 3 w.saveSlot)
        .next ((s1.restartQueues wid).modWarp wid fun x => { x with residence := .parking c q k b })
      else .next s
    | _ => .next s

/-- PARK_COMPLETE, R301: the context is written, and the warp's slot and registers are free. -/
def execParkComplete (wid : Nat) (s : State) : Out :=
  match s.warp? wid with
  | none => .next s
  | some w =>
    match w.residence with
    | .parking .. =>
      if s.ctxEnded (s.ctxOf wid) then .next s
      else .next (s.writeImage s wid w (s.wholeImage wid w) fun u => u.modWarp wid fun x => { x with residence := .parked })
    | _ => .next s

/-- A parked warp takes a place on its block's core again. -/
def State.unparkAt (s : State) (wid : Nat) (w : Warp) (core q k base : Nat) : State :=
  let t := (s.modWarp wid fun x => { x with residence := .resident core q k base }).comeBack wid
  match t.warp? wid with
  | none => s
  | some x =>
    match t.restoreWhole wid x with
    | (.ok u, _) =>
      if u.buffersFree wid x.quarterOf ((u.warp? wid).map (·.records) |>.getD []) then
        (u.recordWarp wid 0x0C (7 + place 3 w.saveSlot)).deliverServices (u.ctxOf wid)
      else s
    | (.error (.fault c a), u) => u.fatal (s.faultRecord wid [] ⟨c, a⟩ w.pcOf) 0 c (a.toNat / 65536)
    | (.error y, u) => s.heldUp y u

/-! ### Limits of waiting (R305, R330) -/

/-- After 65,536 cycles a wait of one of these kinds counts toward parking. -/
def State.waitLimit (s : State) (id : Nat) (p : WaitKind → Bool) : State :=
  match Tab.get? s.waits id with
  | some x => if p x.kind && decide (65536 ≤ s.now - x.since) then { s with waits := Tab.put s.waits id { x with parks := true } } else s
  | none => s

/-- EVWAIT_SPIN_LIMIT, R305. -/
def execEvwaitSpinLimit (id : Nat) (s : State) : Out := .next (s.waitLimit id fun k => match k with | .evwait _ => true | _ => false)

/-- FAULT_WAIT_LIMIT, R330, R394. -/
def execFaultWaitLimit (id : Nat) (s : State) : Out :=
  .next (s.waitLimit id fun k => match k with | .retry (.pageFault ..) | .retry (.writeBlocked ..) => true | _ => false)

/-! ### The end of a context (R332) -/

/-- R215, R332: the regions of a launch that has ended fatally, once its blocks have left their cores and its commands have aborted. -/
def State.endRegions (s : State) (ctx : Nat) : State :=
  (s.launches.filter fun (i, l) => l.ctx == ctx && decide (l.status = .fatal) && (s.blocksOf i).all (fun (_, b) => b.departed) &&
      s.allTasks.all (fun (_, t) => t.launch != i)).foldl (fun t (i, _) => t.releaseRegions ctx fun r => r.launch == i) s

/-- FATAL_FAULT, R332: the engine commands of a context that has ended abort, and what its launches declared is released. Its
threads stopped and its launches ended as the fault was raised. -/
def execFatalFault (ctx : Nat) (s : State) : Out :=
  if s.ctxEnded ctx then
    .next (((s.allTasks.filter fun (k, _) => k % 4096 == ctx).foldl (fun t (k, _) => t.abortTask (k / 4096) ctx) s).endRegions ctx)
  else .next s

end Sys2Proof.Machine
end

