-- ==== Sys2Proof/Machine/Special.lean ====
section
/-! DEFINITION. The special functions and the queue of each quarter (R127 to R132). -/

namespace Sys2Proof.Machine

open Sys2Proof

/-- R131: the queue's capacity. -/
def sfuCapacity : Nat := 16

/-- R131: instructions of a queue that wait or are in service: sets of them are still to be served. -/
def Quarter.sfuLoad (q : Quarter) : Nat := (q.sfu.filter fun e => !e.waiting.isEmpty).length

/-- R127, R131: a special-function instruction joins its quarter's queue with the operands it has read. -/
def opSpecial (fn : Special) (len : Nat) (f : X3) (s : State) : State :=
  let d := if sfuRegs fn.code = 2 then r2 f.d else r1 f.d
  s.issue { shapeX3 len f [d, r1 f.a] with flag := some f.fs } fun e s =>
    if sfuCapacity ≤ (s.quarter e.q).sfuLoad then .hold s
    else
      let wids := warpsOf e.exec
      let flag := e.flag f.fs
      let lanes := e.exec.map fun m => (⟨m.wid, m.lane, f.d.toNat, s.reg m f.a.toNat⟩ : SfuLane)
      let entry : SfuEntry := ⟨fn.code, f.ftz == 1, f.rm.toNat, countsOf wids flag, lanes, []⟩
      .done ((s.countUp wids flag).modQuarter e.q fun x => { x with sfu := x.sfu ++ [entry] })

/-- R131: the lanes of a list in the lowest set that has one. -/
def lowestSet (l : List SfuLane) : List SfuLane :=
  match (List.range 4).find? fun k => l.any fun x => x.lane / 8 == k with
  | some k => l.filter fun x => x.lane / 8 == k
  | none => []

/-- R131: one set of the oldest entry with lanes to serve is served. -/
def serveSet : List SfuEntry → List SfuEntry
  | [] => []
  | e :: rest =>
    let set := lowestSet e.waiting
    if set = [] then e :: serveSet rest
    else { e with waiting := e.waiting.filter (fun l => !set.contains l), served := e.served ++ set } :: rest

/-- R131: the results of one served set of the n-th entry are written, and a warp's count falls with its last set. -/
def State.writeSet (s : State) (q n : Nat) : State :=
  match (s.quarter q).sfu[n]? with
  | none => s
  | some e =>
    let set := lowestSet e.served
    let left : SfuEntry := { e with served := e.served.filter fun l => !set.contains l }
    let finished : Nat × Nat → Bool := fun x => !(left.waiting ++ left.served).any fun l => l.wid == x.1
    let t := (set.foldl (fun t l => t.writeSfu e l) s).countDown (e.flags.filter finished)
    let left := { left with flags := e.flags.filter fun x => !finished x }
    t.modQuarter q fun x =>
      { x with sfu := if left.waiting.isEmpty && left.served.isEmpty then x.sfu.eraseIdx n else x.sfu.set n left }

/-- SFU_SERVICE, R131. -/
def execSfuService (q : Nat) (s : State) : Out := .next (s.modQuarter q fun x => { x with sfu := serveSet x.sfu })

/-- R131: L is 20 for EXP2, LOG2, RCP, RSQRT and SQRT, and 28 for the others. -/
def sfuLatency (fn : Nat) : Nat := match Special.ofCode fn with | .exp2 | .log2 | .rcp | .rsqrt | .sqrt => 20 | _ => 28

/-- R131: sets are served in issue order, so an entry writes only after the sets of every earlier one whose L is not greater. -/
def mayWrite (l : List SfuEntry) (n : Nat) : Bool :=
  match l[n]? with
  | some e => !e.served.isEmpty && (l.take n).all fun x => decide (sfuLatency e.fn < sfuLatency x.fn)
  | none => false

/-- SFU_RESULT_WRITE, R131: a set's results come L cycles after its service. Between an entry and an earlier one of greater L the
cycles decide, which are left out (log entry 2): there the choice is free. -/
def execSfuResultWrite (q : Nat) (s : State) : Out :=
  let ready := (List.range (s.quarter q).sfu.length).filter fun i => mayWrite (s.quarter q).sfu i
  match ready[Config.choice s.turn % ready.length]? with
  | some n => .next (s.writeSet q n)
  | none => .next s

/-! ### Meanings -/

/-- SIN, R127. -/
def execSin (m : Bool) (a : BitVec 7) (d : BitVec 7) (s : State) : Out :=
  .next (opSpecial .sin 4 { s.form32 0 a d with ty := 2, fs := flagBit m } s)

/-- SIN_W, R127. -/
def execSinW (f : X3) (s : State) : Out :=
  .next (opSpecial .sin 8 f s)

/-- COS, R127. -/
def execCos (m : Bool) (a : BitVec 7) (d : BitVec 7) (s : State) : Out :=
  .next (opSpecial .cos 4 { s.form32 0 a d with ty := 2, fs := flagBit m } s)

/-- COS_W, R127. -/
def execCosW (f : X3) (s : State) : Out :=
  .next (opSpecial .cos 8 f s)

/-- SINCOS, R127. -/
def execSincos (m : Bool) (a : BitVec 7) (d : BitVec 7) (s : State) : Out :=
  .next (opSpecial .sincos 4 { s.form32 0 a d with ty := 2, fs := flagBit m } s)

/-- SINCOS_W, R127. -/
def execSincosW (f : X3) (s : State) : Out :=
  .next (opSpecial .sincos 8 f s)

/-- SINPI, R127. -/
def execSinpi (m : Bool) (a : BitVec 7) (d : BitVec 7) (s : State) : Out :=
  .next (opSpecial .sinpi 4 { s.form32 0 a d with ty := 2, fs := flagBit m } s)

/-- SINPI_W, R127. -/
def execSinpiW (f : X3) (s : State) : Out :=
  .next (opSpecial .sinpi 8 f s)

/-- COSPI, R127. -/
def execCospi (m : Bool) (a : BitVec 7) (d : BitVec 7) (s : State) : Out :=
  .next (opSpecial .cospi 4 { s.form32 0 a d with ty := 2, fs := flagBit m } s)

/-- COSPI_W, R127. -/
def execCospiW (f : X3) (s : State) : Out :=
  .next (opSpecial .cospi 8 f s)

/-- EXP2, R127. -/
def execExp2 (m : Bool) (a : BitVec 7) (d : BitVec 7) (s : State) : Out :=
  .next (opSpecial .exp2 4 { s.form32 0 a d with ty := 2, fs := flagBit m } s)

/-- EXP2_W, R127. -/
def execExp2W (f : X3) (s : State) : Out :=
  .next (opSpecial .exp2 8 f s)

/-- LOG2, R127. -/
def execLog2 (m : Bool) (a : BitVec 7) (d : BitVec 7) (s : State) : Out :=
  .next (opSpecial .log2 4 { s.form32 0 a d with ty := 2, fs := flagBit m } s)

/-- LOG2_W, R127. -/
def execLog2W (f : X3) (s : State) : Out :=
  .next (opSpecial .log2 8 f s)

/-- RCP, R127. -/
def execRcp (m : Bool) (a : BitVec 7) (d : BitVec 7) (s : State) : Out :=
  .next (opSpecial .rcp 4 { s.form32 0 a d with ty := 2, fs := flagBit m } s)

/-- RCP_W, R127. -/
def execRcpW (f : X3) (s : State) : Out :=
  .next (opSpecial .rcp 8 f s)

/-- RSQRT, R127. -/
def execRsqrt (m : Bool) (a : BitVec 7) (d : BitVec 7) (s : State) : Out :=
  .next (opSpecial .rsqrt 4 { s.form32 0 a d with ty := 2, fs := flagBit m } s)

/-- RSQRT_W, R127. -/
def execRsqrtW (f : X3) (s : State) : Out :=
  .next (opSpecial .rsqrt 8 f s)

/-- SQRT, R127. -/
def execSqrt (m : Bool) (a : BitVec 7) (d : BitVec 7) (s : State) : Out :=
  .next (opSpecial .sqrt 4 { s.form32 0 a d with ty := 2, fs := flagBit m } s)

/-- SQRT_W, R127. -/
def execSqrtW (f : X3) (s : State) : Out :=
  .next (opSpecial .sqrt 8 f s)

/-- TANH, R127. -/
def execTanh (m : Bool) (a : BitVec 7) (d : BitVec 7) (s : State) : Out :=
  .next (opSpecial .tanh 4 { s.form32 0 a d with ty := 2, fs := flagBit m } s)

/-- TANH_W, R127. -/
def execTanhW (f : X3) (s : State) : Out :=
  .next (opSpecial .tanh 8 f s)

end Sys2Proof.Machine
end

