-- ==== Sys2Proof/Machine/Start.lean ====
section
/-! DEFINITION. Start-up, firmware, resets (R415 to R418), the capability list (R420, R421), power and cooling (R422), and which
steps come about at a stage. -/

namespace Sys2Proof.Machine

open Sys2Proof

/-! ### Stages (R415, R416) -/

/-- R416, R422: MSI-X vector 2, once the link is trained. -/
def State.tellHost (s : State) : State := if s.mgmt.linkTrained then { s with host := s.host.interrupt 2 } else s

def State.toStage (s : State) (n : BitVec 2) : State := ({ s with mgmt := { s.mgmt with stage := n } } : State).tellHost

/-- POWER_GOOD, R415: stage 0. -/
def execPowerGood (s : State) : Out := .next (if s.mgmt.powered then s else s.coldReset)

/-- POWER_LOSS, R347: nothing runs; a capsule is lost. -/
def execPowerLoss (s : State) : Out :=
  .next (if s.mgmt.powered then { s.coldReset with mgmt := { s.coldReset.mgmt with powered := false } } else s)

/-- HOST_LINK_TRAINED, R415, R416: at stage 0 the package enters stage 1; later the stage stays and the host is told it once. -/
def execHostLinkTrained (lanes rate : Nat) (s : State) : Out :=
  if s.mgmt.linkTrained ∨ lanes = 0 ∨ 16 < lanes then .next s
  else
    let s1 := { s with mgmt := { s.mgmt with linkTrained := true, hostLanes := lanes, hostRate := rate } }
    .next (if s.mgmt.stage = 0 then s1.toStage 1 else s1.tellHost)

/-- HOST_LINK_TIMEOUT, R415, R416: 1 s without a trained link; FAIL stays 0. -/
def execHostLinkTimeout (s : State) : Out :=
  if s.mgmt.stage = 0 ∧ !s.mgmt.linkTrained ∧ s.mgmt.resetAt + 1000 * msTime ≤ s.elapsed then
    .next (({ s with mgmt := { s.mgmt with failcode := 4 } } : State).toStage 1)
  else .next s

/-- MEMORY_TRAINED, R415. -/
def execMemoryTrained (s : State) : Out := .next (if s.mgmt.stage = 1 then s.toStage 2 else s)

/-! ### The capability list (R420, R421) -/

/-- R420: a record at a byte offset: its header and its payload. -/
def capRecord (off id len next payload : Nat) : Nat := place (8 * off) (id + place 16 1 + place 32 len + place 48 next + place 64 payload)

/-- R421: the records of the part as it stands. -/
def State.capList (s : State) (version : BitVec 16) : BitVec 3840 :=
  let p := s.part
  let die : Nat := place 64 (p.hlen / 4) + place 128 (2 ^ 51) + place 192 (p.tlen / 4)
  let widths := ((List.range 9).map fun i => place (2 * i) (s.port i).width).sum
  BitVec.ofNat 3840
    (capRecord 0x000 1 16 0x018 (p.variant.toNat + place 8 p.stepping.toNat + place 16 s.enabledCores.length +
        place 64 version.toNat + place 80 s.mgmt.rollback.toNat) +
      capRecord 0x018 2 192 0x0E0 p.cores.toNat +
      capRecord 0x0E0 3 128 0x168 (die + place 256 die + place 512 die + place 768 die) +
      capRecord 0x168 4 56 0x1A8 (place 64 p.slices.toNat) +
      capRecord 0x1A8 5 16 0x1C0 widths +
      capRecord 0x1C0 6 8 0x1D0 (s.mgmt.hostLanes + place 8 s.mgmt.hostRate) +
      capRecord 0x1D0 7 8 0 (6800 + place 16 s.mgmt.pwrlim.toNat))

/-! ### Firmware (R418) -/

/-- The image that the step to stage 3 authenticates. -/
def Management.image (m : Management) : Image := m.staged.getD Config.flashImage

def State.failStart (s : State) (code : BitVec 8) : State :=
  ({ s with mgmt := { s.mgmt with fail := true, failcode := code } } : State).tellHost

/-- R36, R415, R420: the clusters are released: CYCLE starts and the capability list is fixed. -/
def State.releaseClusters (s : State) (version : BitVec 16) : State :=
  ({ s with
    mgmt := { s.mgmt with released := s.now, fwver := version, caps := s.capList version }
    ticks := [], lcFlushed := []
    recorders := s.recorders.map fun (k, r) => (k, { r with timebase := 0 }) } : State).toStage 3

/-- FIRMWARE_AUTHENTICATE, R418: the signature before the version. -/
def execFirmwareAuthenticate (s : State) : Out :=
  if s.mgmt.stage ≠ 2 ∨ s.mgmt.fail then .next s
  else
    let i := s.mgmt.image
    if !Config.signatureValid i then .next (s.failStart 1)
    else if i.version.toNat < s.mgmt.rollback.toNat then .next (s.failStart 2)
    else .next (s.releaseClusters i.version)

/-- FIRMWARE_IMAGE_LOAD, R417, R418. -/
def execFirmwareImageLoad (img : Image) (s : State) : Out :=
  .next { s with mgmt := { s.mgmt with staged := some img }, host := { s.host with notReady := false } }

/-- ROLLBACK_ADVANCE, R418: the counter rises, and only for the provider. -/
def execRollbackAdvance (cred : Credential) (s : State) : Out :=
  let v := s.mgmt.image.version
  .next { s with
    mgmt := { s.mgmt with rollback := if cred = .provider ∧ s.mgmt.rollback.toNat < v.toNat then v else s.mgmt.rollback }
    host := { s.host with notReady := false } }

/-! ### Resets -/

/-- R347: the quay dies assemble a capsule. -/
def State.assembling (s : State) : Bool := s.freeze.isSome && s.capsule.isNone && s.allStopped

/-- WARM_RESET, R347, R415. -/
def execWarmReset (s : State) : Out :=
  .next (if s.assembling then { s with mgmt := { s.mgmt with resetPending := true } } else s.warmReset)

/-- COLD_RESET, R8, R415. -/
def execColdReset (s : State) : Out := .next s.coldReset

/-! ### Power and cooling (R422) -/

/-- R422: what LEVEL becomes: up while a limit is passed, down while both stand below 95 % of theirs. -/
def nextLevel (level pin tout limit : Nat) : Nat :=
  if limit < pin ∨ 650 < tout then min 8 (level + 1)
  else if 100 * pin < 95 * limit ∧ 100 * tout < 95 * 650 then level - 1
  else level

/-- THROTTLE_UPDATE, R422: what the sensors give; LEVEL moves by one at most, in a millisecond of real time. -/
def execThrottleUpdate (pin tout : BitVec 16) (s : State) : Out :=
  let s1 := { s with mgmt := { s.mgmt with pin := pin, tout := tout } }
  let l := nextLevel s.mgmt.level pin.toNat tout.toNat s.mgmt.pwrlim.toNat
  if l = s.mgmt.level ∨ s.elapsed < s.mgmt.levelAt + msTime then .next s1
  else .next (({ s1 with mgmt := { s1.mgmt with level := l, levelAt := s.elapsed } } : State).tellHost)

/-- THERMAL_ALERT, R422: 75.0 °C. -/
def execThermalAlert (s : State) : Out :=
  if s.mgmt.tout.toNat < 750 ∨ s.mgmt.halted then .next s
  else
    let s1 := { s with mgmt := { s.mgmt with halted := true } }
    .next (if s.mgmt.stage = 3 then s1.hostFreeze else s1)

/-- PWRLIM_WRITE, R415, R422: bits 15:0; outside 2,000 to 6,800 ignored. -/
def execPwrlimWrite (v : BitVec 64) (s : State) : Out :=
  let w := v.extractLsb' 0 16
  if s.mgmt.stage = 0 ∨ !s.mgmt.linkTrained ∨ w.toNat < 2000 ∨ 6800 < w.toNat then .next s
  else .next { s with mgmt := { s.mgmt with pwrlim := w } }

/-! ### What comes about at a stage (R415) -/

/-- R415, R417: the first stage at which a step can come about. -/
def firstStage : Instr → Nat
  | .powerGood | .powerLoss | .hostLinkTrained .. | .hostLinkTimeout | .firmwareImageLoad .. | .rollbackAdvance .. | .warmReset | .coldReset
  | .throttleUpdate .. | .thermalAlert | .capsuleRetrieve .. | .capsuleAcknowledge .. | .hostFreezeRequest | .functionLevelReset
  | .portTrained .. | .portRetrain .. | .retrainTimeout .. | .crcErrorReplay .. => 0
  | .memoryTrained | .pwrlimWrite .. | .memRd .. | .memWr .. | .snpData .. | .snpInv .. | .snpCur .. | .serviceDoorbell .. | .hostEventRaise ..
  | .replayDoorbell .. | .hpnconsWrite .. | .faultQueueConsumerIndex .. | .submissionDoorbell .. | .completionConsumerIndex .. => 1
  | .firmwareAuthenticate => 2
  | _ => 3

/-- R395, R397, R416: accesses that come over the host link. -/
def overLink : Instr → Bool
  | .functionLevelReset | .memRd .. | .memWr .. | .snpData .. | .snpInv .. | .snpCur .. | .hostDataResponse .. | .biRspS .. | .biRspI ..
  | .serviceDoorbell .. | .hostEventRaise .. | .replayDoorbell .. | .hpnconsWrite .. | .faultQueueConsumerIndex .. | .submissionDoorbell ..
  | .completionConsumerIndex .. => true
  | _ => false

/-- R422: steps of the clusters, which a thermal alert halts. -/
def ofCluster : Instr → Bool
  | .arbitrate .. | .waitEnd .. | .sleepExpiry .. | .loadReturn .. | .absentLineDelivery .. | .atomicReturn .. | .sfuService .. | .sfuResultWrite ..
  | .kstepStart .. | .kstepWrite .. | .mmatRendezvous .. | .obldComplete .. | .warpRelease .. | .ptsCreep .. | .tileTaskStart ..
  | .engineLineWrite .. | .tileTaskComplete .. | .tileTaskAbort .. | .collRendezvous .. | .keystoneArrival .. | .keystoneRelease .. | .blockPlace
  | .park .. | .parkComplete .. | .unpark .. | .evwaitSpinLimit .. | .faultWaitLimit .. | .trapEntry .. | .forcedSaveComplete ..
  | .blockScratchpadSave .. | .resumeAdmission .. | .dataerrLoad .. | .timebaseWrap .. => true
  | _ => false

/-- An event comes about only where the package can take it. -/
def comesAbout (s : State) (e : Instr) : Bool :=
  decide (firstStage e ≤ s.mgmt.stage.toNat) && !(s.mgmt.halted && ofCluster e) && (s.mgmt.linkTrained || !overLink e)

end Sys2Proof.Machine
end

