-- ==== Sys2Proof/Machine/WaitEnd.lean ====
section
/-! DEFINITION. How waits with the slot free end (R144), and how a parked warp becomes resident again (R301). -/

namespace Sys2Proof.Machine

open Sys2Proof

/-- R394: the page's translation holds writes back for a core. -/
def State.pageBlocked (s : State) (core ctx page : Nat) : Bool := (s.translate core ctx (page * 65536) .write).1 matches .blocked

/-- What a wait that ends by retrying its instruction waits for has come about. -/
def State.retryReady (s : State) (x : Wait) : Retry → Bool
  | .engineRoom eng ctx => decide ((s.engineQueue (queueKey eng ctx)).tasks.length < 64)
  | .ringRoom core off => !(s.ring core off).full
  | .serviceRoom ctx n => match s.ctx? ctx with | some c => c.serviceRoom n | none => true
  | .pageFault ctx page k die => !s.host.faults.any fun f => f.isFor ctx page k die
  | .writeBlocked ctx page => x.members.all fun m => !s.pageBlocked (s.coreOf m.wid) ctx page
  | .queueRoom q => match Tab.get? s.queues q with | some y => decide (y.pending.length < y.capacity) | none => true
  | .absentRoom wid => decide (s.absentLoads wid < 8)

/-- R144, R330: one attempt to end a wait: its instruction completes, or faults, or is tried again, or the wait goes on. -/
def State.attemptWait (s : State) (id : Nat) : State :=
  match Tab.get? s.waits id with
  | none => s
  | some x =>
    match x.kind with
    | .fence f lines => s.tryFence id x f lines
    | .crrel f fills => s.tryCrrel id x f fills
    | .barv f => s.tryBarv id x f
    | .bwait f => s.tryBwait id x f
    | .rawait f => s.tryRawait id x f
    | .tkwait f => s.tryTkwait id x f
    | .launch f n _ => s.tryLaunch id x f n
    | .join f => s.tryJoin id x f
    | .evsig f => s.tryEvsig id x f
    | .evwait f => s.tryEvwait id x f
    | .sgset f => s.trySgset id x f
    | .swr f n => s.trySwr id x f n
    | .savex f => s.trySavex id x f
    | .restx f => s.tryRestx id x f
    | .tret f => s.tryTret id x f
    | .watch change =>
      match x.members, change with
      | m :: _, some c => (s.changeWatch (s.ctxOf m.wid) c).endWait id
      | _, _ => s.endWait id
    | .snapshot r => if s.freezeReqs.any (fun q => q.id == r) || s.freeze.any (fun z => z.ids.contains r) then s else s.endWait id
    | .mmat .. => s
    | .retry c => if s.retryReady x c then s.retryWait id else s

/-- Every thread of a waiting group is there, in a resident warp of a context that goes on. -/
def State.waitStands (s : State) (id : Nat) (x : Wait) : Bool :=
  x.members.all fun m =>
    !s.ctxEnded (s.ctxOf m.wid) && (s.warp? m.wid).any Warp.resident && (s.thread? m).any fun t => decide (t.status = .waiting id)

/-- WAIT_END, R144. -/
def execWaitEnd (id : Nat) (s : State) : Out :=
  match Tab.get? s.waits id with
  | some x => if s.waitStands id x then .next (s.attemptWait id) else .next s
  | none => .next s

/-! ### Parked warps (R301) -/

/-- R301: a waiting thread could continue; one of LAUNCH.PARK once the queue that had no room has some. -/
def State.couldContinue (s : State) (t : Thread) (ctx : Nat) : Bool :=
  match t.status with
  | .running => true
  | .waiting id =>
    match (Tab.get? s.waits id).map Wait.kind with
    | some (.launch _ _ (some q)) => match Tab.get? s.queues q with | some y => decide (y.pending.length < y.capacity) | none => true
    | _ => decide (Tab.get? (s.attemptWait id).waits id ≠ Tab.get? s.waits id)
  | .service .. => s.replied t ctx
  | _ => false

/-- UNPARK, R301: as soon as a waiting thread could continue, the warp takes a place on its block's core. -/
def execUnpark (wid : Nat) (s : State) : Out :=
  match s.warp? wid, s.block? (s.blockOf wid) with
  | some w, some b =>
    let ctx := s.ctxOf wid
    let held := (s.launch? b.launch).any fun l => l.preempted.isSome
    if w.residence = .parked ∧ !held ∧ !s.ctxEnded ctx ∧ w.threads.any (fun (_, t) => s.couldContinue t ctx) then
      match s.warpPlace w b with
      | some (q, k, base) => .next (s.unparkAt wid w b.core q k base)
      | none => .next s
    else .next s
  | _, _ => .next s

end Sys2Proof.Machine
end

