-- ==== Sys2Proof/Machine/Dispatch.lean ====
section
/-! DEFINITION. The one match over the instruction set: each constructor of `Instr` to its meaning. -/

namespace Sys2Proof.Machine

open Sys2Proof

/-- The meaning of an instruction or of a step of the part. -/
def exec (i : Instr) (s : State) : Host.Outcome State Fault Refusal :=
  match i with
  | .mov16 y x => Sys2Proof.Machine.execMov16 y x s
  | .iadd16 y x => Sys2Proof.Machine.execIadd16 y x s
  | .isub16 y x => Sys2Proof.Machine.execIsub16 y x s
  | .imul16 y x => Sys2Proof.Machine.execImul16 y x s
  | .and16 y x => Sys2Proof.Machine.execAnd16 y x s
  | .or16 y x => Sys2Proof.Machine.execOr16 y x s
  | .xor16 y x => Sys2Proof.Machine.execXor16 y x s
  | .shl16 y x => Sys2Proof.Machine.execShl16 y x s
  | .shr16 y x => Sys2Proof.Machine.execShr16 y x s
  | .sar16 y x => Sys2Proof.Machine.execSar16 y x s
  | .fadd16 y x => Sys2Proof.Machine.execFadd16 y x s
  | .fsub16 y x => Sys2Proof.Machine.execFsub16 y x s
  | .fmul16 y x => Sys2Proof.Machine.execFmul16 y x s
  | .fmax16 y x => Sys2Proof.Machine.execFmax16 y x s
  | .fmin16 y x => Sys2Proof.Machine.execFmin16 y x s
  | .hadd216 y x => Sys2Proof.Machine.execHadd216 y x s
  | .nop => Sys2Proof.Machine.execNop s
  | .nopW f => Sys2Proof.Machine.execNopW f s
  | .bra j => Sys2Proof.Machine.execBra j s
  | .braW f => Sys2Proof.Machine.execBraW f s
  | .brx a => Sys2Proof.Machine.execBrx a s
  | .brxW f => Sys2Proof.Machine.execBrxW f s
  | .call j => Sys2Proof.Machine.execCall j s
  | .callW f => Sys2Proof.Machine.execCallW f s
  | .callx a => Sys2Proof.Machine.execCallx a s
  | .callxW f => Sys2Proof.Machine.execCallxW f s
  | .ret => Sys2Proof.Machine.execRet s
  | .retW f => Sys2Proof.Machine.execRetW f s
  | .loop off lcn cnt => Sys2Proof.Machine.execLoop off lcn cnt s
  | .loopW f => Sys2Proof.Machine.execLoopW f s
  | .lbrk d => Sys2Proof.Machine.execLbrk d s
  | .lbrkW f => Sys2Proof.Machine.execLbrkW f s
  | .exit => Sys2Proof.Machine.execExit s
  | .exitW f => Sys2Proof.Machine.execExitW f s
  | .yield => Sys2Proof.Machine.execYield s
  | .yieldW f => Sys2Proof.Machine.execYieldW f s
  | .waitf k => Sys2Proof.Machine.execWaitf k s
  | .waitfW f => Sys2Proof.Machine.execWaitfW f s
  | .sval sel d => Sys2Proof.Machine.execSval sel d s
  | .svalW f => Sys2Proof.Machine.execSvalW f s
  | .partset b => Sys2Proof.Machine.execPartset b s
  | .partsetW f => Sys2Proof.Machine.execPartsetW f s
  | .modeM => Sys2Proof.Machine.execModeM s
  | .modeV => Sys2Proof.Machine.execModeV s
  | .modeW f => Sys2Proof.Machine.execModeW f s
  | .sleep n => Sys2Proof.Machine.execSleep n s
  | .sleepW f => Sys2Proof.Machine.execSleepW f s
  | .trap n => Sys2Proof.Machine.execTrap n s
  | .trapSvc n a d => Sys2Proof.Machine.execTrapSvc n a d s
  | .trapW f => Sys2Proof.Machine.execTrapW f s
  | .trapSvcW f => Sys2Proof.Machine.execTrapSvcW f s
  | .tret m => Sys2Proof.Machine.execTret m s
  | .tretW f => Sys2Proof.Machine.execTretW f s
  | .preack => Sys2Proof.Machine.execPreack s
  | .preackW f => Sys2Proof.Machine.execPreackW f s
  | .plop b a d => Sys2Proof.Machine.execPlop b a d s
  | .plopW f => Sys2Proof.Machine.execPlopW f s
  | .pmov m b a d => Sys2Proof.Machine.execPmov m b a d s
  | .pmovW f => Sys2Proof.Machine.execPmovW f s
  | .pset b a d => Sys2Proof.Machine.execPset b a d s
  | .psetW f => Sys2Proof.Machine.execPsetW f s
  | .pcnt a d => Sys2Proof.Machine.execPcnt a d s
  | .pcntW f => Sys2Proof.Machine.execPcntW f s
  | .sel m b a d => Sys2Proof.Machine.execSel m b a d s
  | .selW f => Sys2Proof.Machine.execSelW f s
  | .mov b a d => Sys2Proof.Machine.execMov b a d s
  | .movW f => Sys2Proof.Machine.execMovW f s
  | .movi k d => Sys2Proof.Machine.execMovi k d s
  | .moviW f => Sys2Proof.Machine.execMoviW f s
  | .lea m b a d => Sys2Proof.Machine.execLea m b a d s
  | .leaW f => Sys2Proof.Machine.execLeaW f s
  | .icmp m b a d => Sys2Proof.Machine.execIcmp m b a d s
  | .icmpW f => Sys2Proof.Machine.execIcmpW f s
  | .icmpp m b a d => Sys2Proof.Machine.execIcmpp m b a d s
  | .icmppW f => Sys2Proof.Machine.execIcmppW f s
  | .iadd b a d => Sys2Proof.Machine.execIadd b a d s
  | .iaddW f => Sys2Proof.Machine.execIaddW f s
  | .isub b a d => Sys2Proof.Machine.execIsub b a d s
  | .isubW f => Sys2Proof.Machine.execIsubW f s
  | .iaddc b a d => Sys2Proof.Machine.execIaddc b a d s
  | .iaddcW f => Sys2Proof.Machine.execIaddcW f s
  | .isubb b a d => Sys2Proof.Machine.execIsubb b a d s
  | .isubbW f => Sys2Proof.Machine.execIsubbW f s
  | .imul b a d => Sys2Proof.Machine.execImul b a d s
  | .imulW f => Sys2Proof.Machine.execImulW f s
  | .imulh m b a d => Sys2Proof.Machine.execImulh m b a d s
  | .imulhW f => Sys2Proof.Machine.execImulhW f s
  | .imad b a d => Sys2Proof.Machine.execImad b a d s
  | .imadW f => Sys2Proof.Machine.execImadW f s
  | .imadw m b a d => Sys2Proof.Machine.execImadw m b a d s
  | .imadwW f => Sys2Proof.Machine.execImadwW f s
  | .ineg a d => Sys2Proof.Machine.execIneg a d s
  | .inegW f => Sys2Proof.Machine.execInegW f s
  | .iabs a d => Sys2Proof.Machine.execIabs a d s
  | .iabsW f => Sys2Proof.Machine.execIabsW f s
  | .imin m b a d => Sys2Proof.Machine.execImin m b a d s
  | .iminW f => Sys2Proof.Machine.execIminW f s
  | .imax m b a d => Sys2Proof.Machine.execImax m b a d s
  | .imaxW f => Sys2Proof.Machine.execImaxW f s
  | .popc a d => Sys2Proof.Machine.execPopc a d s
  | .popcW f => Sys2Proof.Machine.execPopcW f s
  | .clz a d => Sys2Proof.Machine.execClz a d s
  | .clzW f => Sys2Proof.Machine.execClzW f s
  | .ctz a d => Sys2Proof.Machine.execCtz a d s
  | .ctzW f => Sys2Proof.Machine.execCtzW f s
  | .brev a d => Sys2Proof.Machine.execBrev a d s
  | .brevW f => Sys2Proof.Machine.execBrevW f s
  | .and b a d => Sys2Proof.Machine.execAnd b a d s
  | .andW f => Sys2Proof.Machine.execAndW f s
  | .or b a d => Sys2Proof.Machine.execOr b a d s
  | .orW f => Sys2Proof.Machine.execOrW f s
  | .xor b a d => Sys2Proof.Machine.execXor b a d s
  | .xorW f => Sys2Proof.Machine.execXorW f s
  | .andn b a d => Sys2Proof.Machine.execAndn b a d s
  | .andnW f => Sys2Proof.Machine.execAndnW f s
  | .not a d => Sys2Proof.Machine.execNot a d s
  | .notW f => Sys2Proof.Machine.execNotW f s
  | .shl b a d => Sys2Proof.Machine.execShl b a d s
  | .shlW f => Sys2Proof.Machine.execShlW f s
  | .shr b a d => Sys2Proof.Machine.execShr b a d s
  | .shrW f => Sys2Proof.Machine.execShrW f s
  | .sar b a d => Sys2Proof.Machine.execSar b a d s
  | .sarW f => Sys2Proof.Machine.execSarW f s
  | .shf b a d => Sys2Proof.Machine.execShf b a d s
  | .shfW f => Sys2Proof.Machine.execShfW f s
  | .bfx m b a d => Sys2Proof.Machine.execBfx m b a d s
  | .bfxW f => Sys2Proof.Machine.execBfxW f s
  | .bfi b a d => Sys2Proof.Machine.execBfi b a d s
  | .bfiW f => Sys2Proof.Machine.execBfiW f s
  | .prmt b a d => Sys2Proof.Machine.execPrmt b a d s
  | .prmtW f => Sys2Proof.Machine.execPrmtW f s
  | .iaddImm imm a d => Sys2Proof.Machine.execIaddImm imm a d s
  | .iaddImmW f => Sys2Proof.Machine.execIaddImmW f s
  | .isubImm imm a d => Sys2Proof.Machine.execIsubImm imm a d s
  | .isubImmW f => Sys2Proof.Machine.execIsubImmW f s
  | .imulImm imm a d => Sys2Proof.Machine.execImulImm imm a d s
  | .imulImmW f => Sys2Proof.Machine.execImulImmW f s
  | .andImm imm a d => Sys2Proof.Machine.execAndImm imm a d s
  | .andImmW f => Sys2Proof.Machine.execAndImmW f s
  | .orImm imm a d => Sys2Proof.Machine.execOrImm imm a d s
  | .orImmW f => Sys2Proof.Machine.execOrImmW f s
  | .xorImm imm a d => Sys2Proof.Machine.execXorImm imm a d s
  | .xorImmW f => Sys2Proof.Machine.execXorImmW f s
  | .shlImm imm a d => Sys2Proof.Machine.execShlImm imm a d s
  | .shlImmW f => Sys2Proof.Machine.execShlImmW f s
  | .shrImm imm a d => Sys2Proof.Machine.execShrImm imm a d s
  | .shrImmW f => Sys2Proof.Machine.execShrImmW f s
  | .sarImm imm a d => Sys2Proof.Machine.execSarImm imm a d s
  | .sarImmW f => Sys2Proof.Machine.execSarImmW f s
  | .iminImm imm a d => Sys2Proof.Machine.execIminImm imm a d s
  | .iminImmW f => Sys2Proof.Machine.execIminImmW f s
  | .imaxImm imm a d => Sys2Proof.Machine.execImaxImm imm a d s
  | .imaxImmW f => Sys2Proof.Machine.execImaxImmW f s
  | .icmpImm imm a d => Sys2Proof.Machine.execIcmpImm imm a d s
  | .icmpImmW f => Sys2Proof.Machine.execIcmpImmW f s
  | .icmppImm m imm a d => Sys2Proof.Machine.execIcmppImm m imm a d s
  | .icmppImmW f => Sys2Proof.Machine.execIcmppImmW f s
  | .leaImm imm a d => Sys2Proof.Machine.execLeaImm imm a d s
  | .leaImmW f => Sys2Proof.Machine.execLeaImmW f s
  | .add64Imm imm a d => Sys2Proof.Machine.execAdd64Imm imm a d s
  | .add64ImmW f => Sys2Proof.Machine.execAdd64ImmW f s
  | .add64 b a d => Sys2Proof.Machine.execAdd64 b a d s
  | .add64W f => Sys2Proof.Machine.execAdd64W f s
  | .sub64 b a d => Sys2Proof.Machine.execSub64 b a d s
  | .sub64W f => Sys2Proof.Machine.execSub64W f s
  | .shl64 b a d => Sys2Proof.Machine.execShl64 b a d s
  | .shl64W f => Sys2Proof.Machine.execShl64W f s
  | .cmp64 m b a d => Sys2Proof.Machine.execCmp64 m b a d s
  | .cmp64W f => Sys2Proof.Machine.execCmp64W f s
  | .mad64 b a d => Sys2Proof.Machine.execMad64 b a d s
  | .mad64W f => Sys2Proof.Machine.execMad64W f s
  | .i2f m a d => Sys2Proof.Machine.execI2f m a d s
  | .i2fW f => Sys2Proof.Machine.execI2fW f s
  | .f2i m a d => Sys2Proof.Machine.execF2i m a d s
  | .f2iW f => Sys2Proof.Machine.execF2iW f s
  | .f2f m a d => Sys2Proof.Machine.execF2f m a d s
  | .f2fW f => Sys2Proof.Machine.execF2fW f s
  | .pack m b a d => Sys2Proof.Machine.execPack m b a d s
  | .packW f => Sys2Proof.Machine.execPackW f s
  | .unpack m a d => Sys2Proof.Machine.execUnpack m a d s
  | .unpackW f => Sys2Proof.Machine.execUnpackW f s
  | .fadd b a d => Sys2Proof.Machine.execFadd b a d s
  | .faddW f => Sys2Proof.Machine.execFaddW f s
  | .fsub b a d => Sys2Proof.Machine.execFsub b a d s
  | .fsubW f => Sys2Proof.Machine.execFsubW f s
  | .fmul b a d => Sys2Proof.Machine.execFmul b a d s
  | .fmulW f => Sys2Proof.Machine.execFmulW f s
  | .ffma b a d => Sys2Proof.Machine.execFfma b a d s
  | .ffmaW f => Sys2Proof.Machine.execFfmaW f s
  | .fmin b a d => Sys2Proof.Machine.execFmin b a d s
  | .fminW f => Sys2Proof.Machine.execFminW f s
  | .fmax b a d => Sys2Proof.Machine.execFmax b a d s
  | .fmaxW f => Sys2Proof.Machine.execFmaxW f s
  | .fcmp b a d => Sys2Proof.Machine.execFcmp b a d s
  | .fcmpW f => Sys2Proof.Machine.execFcmpW f s
  | .fcmpp m b a d => Sys2Proof.Machine.execFcmpp m b a d s
  | .fcmppW f => Sys2Proof.Machine.execFcmppW f s
  | .frnd a d => Sys2Proof.Machine.execFrnd a d s
  | .frndW f => Sys2Proof.Machine.execFrndW f s
  | .fclass a d => Sys2Proof.Machine.execFclass a d s
  | .fclassW f => Sys2Proof.Machine.execFclassW f s
  | .fscale b a d => Sys2Proof.Machine.execFscale b a d s
  | .fscaleW f => Sys2Proof.Machine.execFscaleW f s
  | .fexpn a d => Sys2Proof.Machine.execFexpn a d s
  | .fexpnW f => Sys2Proof.Machine.execFexpnW f s
  | .fmant a d => Sys2Proof.Machine.execFmant a d s
  | .fmantW f => Sys2Proof.Machine.execFmantW f s
  | .fcpys m b a d => Sys2Proof.Machine.execFcpys m b a d s
  | .fcpysW f => Sys2Proof.Machine.execFcpysW f s
  | .hadd2 m b a d => Sys2Proof.Machine.execHadd2 m b a d s
  | .hadd2W f => Sys2Proof.Machine.execHadd2W f s
  | .hsub2 m b a d => Sys2Proof.Machine.execHsub2 m b a d s
  | .hsub2W f => Sys2Proof.Machine.execHsub2W f s
  | .hmul2 m b a d => Sys2Proof.Machine.execHmul2 m b a d s
  | .hmul2W f => Sys2Proof.Machine.execHmul2W f s
  | .hfma2 m b a d => Sys2Proof.Machine.execHfma2 m b a d s
  | .hfma2W f => Sys2Proof.Machine.execHfma2W f s
  | .hmax2 m b a d => Sys2Proof.Machine.execHmax2 m b a d s
  | .hmax2W f => Sys2Proof.Machine.execHmax2W f s
  | .hmin2 m b a d => Sys2Proof.Machine.execHmin2 m b a d s
  | .hmin2W f => Sys2Proof.Machine.execHmin2W f s
  | .hdot2 m b a d => Sys2Proof.Machine.execHdot2 m b a d s
  | .hdot2W f => Sys2Proof.Machine.execHdot2W f s
  | .sin m a d => Sys2Proof.Machine.execSin m a d s
  | .sinW f => Sys2Proof.Machine.execSinW f s
  | .cos m a d => Sys2Proof.Machine.execCos m a d s
  | .cosW f => Sys2Proof.Machine.execCosW f s
  | .sincos m a d => Sys2Proof.Machine.execSincos m a d s
  | .sincosW f => Sys2Proof.Machine.execSincosW f s
  | .sinpi m a d => Sys2Proof.Machine.execSinpi m a d s
  | .sinpiW f => Sys2Proof.Machine.execSinpiW f s
  | .cospi m a d => Sys2Proof.Machine.execCospi m a d s
  | .cospiW f => Sys2Proof.Machine.execCospiW f s
  | .exp2 m a d => Sys2Proof.Machine.execExp2 m a d s
  | .exp2W f => Sys2Proof.Machine.execExp2W f s
  | .log2 m a d => Sys2Proof.Machine.execLog2 m a d s
  | .log2W f => Sys2Proof.Machine.execLog2W f s
  | .rcp m a d => Sys2Proof.Machine.execRcp m a d s
  | .rcpW f => Sys2Proof.Machine.execRcpW f s
  | .rsqrt m a d => Sys2Proof.Machine.execRsqrt m a d s
  | .rsqrtW f => Sys2Proof.Machine.execRsqrtW f s
  | .sqrt m a d => Sys2Proof.Machine.execSqrt m a d s
  | .sqrtW f => Sys2Proof.Machine.execSqrtW f s
  | .tanh m a d => Sys2Proof.Machine.execTanh m a d s
  | .tanhW f => Sys2Proof.Machine.execTanhW f s
  | .shfl m b a d => Sys2Proof.Machine.execShfl m b a d s
  | .shflW f => Sys2Proof.Machine.execShflW f s
  | .pairx m b a d => Sys2Proof.Machine.execPairx m b a d s
  | .pairxW f => Sys2Proof.Machine.execPairxW f s
  | .vote m a d => Sys2Proof.Machine.execVote m a d s
  | .voteW f => Sys2Proof.Machine.execVoteW f s
  | .redux m b a d => Sys2Proof.Machine.execRedux m b a d s
  | .reduxW f => Sys2Proof.Machine.execReduxW f s
  | .scan m b a d => Sys2Proof.Machine.execScan m b a d s
  | .scanW f => Sys2Proof.Machine.execScanW f s
  | .matchL m a d => Sys2Proof.Machine.execMatchL m a d s
  | .matchLW f => Sys2Proof.Machine.execMatchLW f s
  | .lsync => Sys2Proof.Machine.execLsync s
  | .lsyncW f => Sys2Proof.Machine.execLsyncW f s
  | .ld m b a d => Sys2Proof.Machine.execLd m b a d s
  | .ldW f => Sys2Proof.Machine.execLdW f s
  | .st b a d => Sys2Proof.Machine.execSt b a d s
  | .stW f => Sys2Proof.Machine.execStW f s
  | .ldro m b a d => Sys2Proof.Machine.execLdro m b a d s
  | .ldroW f => Sys2Proof.Machine.execLdroW f s
  | .lds m b a d => Sys2Proof.Machine.execLds m b a d s
  | .ldsW f => Sys2Proof.Machine.execLdsW f s
  | .sts b a d => Sys2Proof.Machine.execSts b a d s
  | .stsW f => Sys2Proof.Machine.execStsW f s
  | .mma f => Sys2Proof.Machine.execMma f s
  | .mmag f => Sys2Proof.Machine.execMmag f s
  | .mmat f => Sys2Proof.Machine.execMmat f s
  | .aclr f => Sys2Proof.Machine.execAclr f s
  | .ascale f => Sys2Proof.Machine.execAscale f s
  | .acvt f => Sys2Proof.Machine.execAcvt f s
  | .atrn f => Sys2Proof.Machine.execAtrn f s
  | .apatch f => Sys2Proof.Machine.execApatch f s
  | .await f => Sys2Proof.Machine.execAwait f s
  | .obres f => Sys2Proof.Machine.execObres f s
  | .obrel f => Sys2Proof.Machine.execObrel f s
  | .obld f => Sys2Proof.Machine.execObld f s
  | .obswap f => Sys2Proof.Machine.execObswap f s
  | .atom f => Sys2Proof.Machine.execAtom f s
  | .atoms f => Sys2Proof.Machine.execAtoms f s
  | .atomp f => Sys2Proof.Machine.execAtomp f s
  | .fence f => Sys2Proof.Machine.execFence f s
  | .prefb f => Sys2Proof.Machine.execPrefb f s
  | .crdecl f => Sys2Proof.Machine.execCrdecl f s
  | .crrel f => Sys2Proof.Machine.execCrrel f s
  | .invl f => Sys2Proof.Machine.execInvl f s
  | .wbl f => Sys2Proof.Machine.execWbl f s
  | .lhint f => Sys2Proof.Machine.execLhint f s
  | .pres f => Sys2Proof.Machine.execPres f s
  | .cpa f => Sys2Proof.Machine.execCpa f s
  | .cpt f => Sys2Proof.Machine.execCpt f s
  | .cpm f => Sys2Proof.Machine.execCpm f s
  | .gath f => Sys2Proof.Machine.execGath f s
  | .scat f => Sys2Proof.Machine.execScat f s
  | .rinit f => Sys2Proof.Machine.execRinit f s
  | .rawait f => Sys2Proof.Machine.execRawait f s
  | .rrel f => Sys2Proof.Machine.execRrel f s
  | .binit f => Sys2Proof.Machine.execBinit f s
  | .barv f => Sys2Proof.Machine.execBarv f s
  | .bexp f => Sys2Proof.Machine.execBexp f s
  | .bwait f => Sys2Proof.Machine.execBwait f s
  | .btest f => Sys2Proof.Machine.execBtest f s
  | .coll f => Sys2Proof.Machine.execColl f s
  | .tkwait f => Sys2Proof.Machine.execTkwait f s
  | .launch f => Sys2Proof.Machine.execLaunch f s
  | .join f => Sys2Proof.Machine.execJoin f s
  | .sgset f => Sys2Proof.Machine.execSgset f s
  | .prio f => Sys2Proof.Machine.execPrio f s
  | .evsig f => Sys2Proof.Machine.execEvsig f s
  | .evwait f => Sys2Proof.Machine.execEvwait f s
  | .cvtq f => Sys2Proof.Machine.execCvtq f s
  | .dqcb f => Sys2Proof.Machine.execDqcb f s
  | .savex f => Sys2Proof.Machine.execSavex f s
  | .restx f => Sys2Proof.Machine.execRestx f s
  | .watch f => Sys2Proof.Machine.execWatch f s
  | .unwatch f => Sys2Proof.Machine.execUnwatch f s
  | .evmark f => Sys2Proof.Machine.execEvmark f s
  | .rdcap f => Sys2Proof.Machine.execRdcap f s
  | .srd f => Sys2Proof.Machine.execSrd f s
  | .swr f => Sys2Proof.Machine.execSwr f s
  | .freeze f => Sys2Proof.Machine.execFreeze f s
  | .bkpt f => Sys2Proof.Machine.execBkpt f s
  | .arbitrate q => Sys2Proof.Machine.execArbitrate q s
  | .waitEnd w => Sys2Proof.Machine.execWaitEnd w s
  | .sleepExpiry wid lane => Sys2Proof.Machine.execSleepExpiry wid lane s
  | .loadReturn op => Sys2Proof.Machine.execLoadReturn op s
  | .absentLineDelivery op => Sys2Proof.Machine.execAbsentLineDelivery op s
  | .atomicReturn op => Sys2Proof.Machine.execAtomicReturn op s
  | .sfuService q => Sys2Proof.Machine.execSfuService q s
  | .sfuResultWrite q => Sys2Proof.Machine.execSfuResultWrite q s
  | .kstepStart q => Sys2Proof.Machine.execKstepStart q s
  | .kstepWrite q => Sys2Proof.Machine.execKstepWrite q s
  | .mmatRendezvous wid => Sys2Proof.Machine.execMmatRendezvous wid s
  | .obldComplete op => Sys2Proof.Machine.execObldComplete op s
  | .warpRelease wid => Sys2Proof.Machine.execWarpRelease wid s
  | .ptsCreep wid => Sys2Proof.Machine.execPtsCreep wid s
  | .clockTick clk => Sys2Proof.Machine.execClockTick clk s
  | .localAgeingSweep clk => Sys2Proof.Machine.execLocalAgeingSweep clk s
  | .homeAgeingSweep qd => Sys2Proof.Machine.execHomeAgeingSweep qd s
  | .leasedLoadRequest req => Sys2Proof.Machine.execLeasedLoadRequest req s
  | .homeStore req => Sys2Proof.Machine.execHomeStore req s
  | .writeBack pt line => Sys2Proof.Machine.execWriteBack pt line s
  | .dirtyAgeWriteback pt line => Sys2Proof.Machine.execDirtyAgeWriteback pt line s
  | .homeSliceArbitration line => Sys2Proof.Machine.execHomeSliceArbitration line s
  | .retry req => Sys2Proof.Machine.execRetry req s
  | .diexLeaseGrant die line => Sys2Proof.Machine.execDiexLeaseGrant die line s
  | .recall line => Sys2Proof.Machine.execRecall line s
  | .tileTaskStart eng ctx => Sys2Proof.Machine.execTileTaskStart eng ctx s
  | .engineLineWrite eng ctx => Sys2Proof.Machine.execEngineLineWrite eng ctx s
  | .tileTaskComplete eng ctx => Sys2Proof.Machine.execTileTaskComplete eng ctx s
  | .tileTaskAbort eng ctx => Sys2Proof.Machine.execTileTaskAbort eng ctx s
  | .collRendezvous eng ctx => Sys2Proof.Machine.execCollRendezvous eng ctx s
  | .keystoneArrival k => Sys2Proof.Machine.execKeystoneArrival k s
  | .keystoneRelease k => Sys2Proof.Machine.execKeystoneRelease k s
  | .submissionDoorbell q v => Sys2Proof.Machine.execSubmissionDoorbell q v s
  | .recordTake q => Sys2Proof.Machine.execRecordTake q s
  | .blockPlace => Sys2Proof.Machine.execBlockPlace s
  | .priorityPromotion l => Sys2Proof.Machine.execPriorityPromotion l s
  | .candidateReserve l => Sys2Proof.Machine.execCandidateReserve l s
  | .launchComplete l => Sys2Proof.Machine.execLaunchComplete l s
  | .completionEntryPost q => Sys2Proof.Machine.execCompletionEntryPost q s
  | .completionConsumerIndex q v => Sys2Proof.Machine.execCompletionConsumerIndex q v s
  | .hostEventRaise ctx v => Sys2Proof.Machine.execHostEventRaise ctx v s
  | .park wid => Sys2Proof.Machine.execPark wid s
  | .parkComplete wid => Sys2Proof.Machine.execParkComplete wid s
  | .unpark wid => Sys2Proof.Machine.execUnpark wid s
  | .evwaitSpinLimit w => Sys2Proof.Machine.execEvwaitSpinLimit w s
  | .faultWaitLimit w => Sys2Proof.Machine.execFaultWaitLimit w s
  | .trapEntry wid => Sys2Proof.Machine.execTrapEntry wid s
  | .preemptRequest l => Sys2Proof.Machine.execPreemptRequest l s
  | .graceExpiry l => Sys2Proof.Machine.execGraceExpiry l s
  | .forcedSaveComplete wid => Sys2Proof.Machine.execForcedSaveComplete wid s
  | .blockScratchpadSave b => Sys2Proof.Machine.execBlockScratchpadSave b s
  | .resumeAdmission wid => Sys2Proof.Machine.execResumeAdmission wid s
  | .fatalFault ctx => Sys2Proof.Machine.execFatalFault ctx s
  | .dataerrLoad op => Sys2Proof.Machine.execDataerrLoad op s
  | .pageWalk core ctx va kind => Sys2Proof.Machine.execPageWalk core ctx va kind s
  | .faultQueuePost => Sys2Proof.Machine.execFaultQueuePost s
  | .faultQueueConsumerIndex v => Sys2Proof.Machine.execFaultQueueConsumerIndex v s
  | .replayDoorbell v => Sys2Proof.Machine.execReplayDoorbell v s
  | .serviceDoorbell ctx v => Sys2Proof.Machine.execServiceDoorbell ctx v s
  | .timebaseWrap core => Sys2Proof.Machine.execTimebaseWrap core s
  | .freezeRequestArrival core => Sys2Proof.Machine.execFreezeRequestArrival core s
  | .freezeMessage core => Sys2Proof.Machine.execFreezeMessage core s
  | .capsuleAssembly => Sys2Proof.Machine.execCapsuleAssembly s
  | .hostFreezeRequest => Sys2Proof.Machine.execHostFreezeRequest s
  | .capsuleRetrieve tenant cred => Sys2Proof.Machine.execCapsuleRetrieve tenant cred s
  | .capsuleAcknowledge fsn cred => Sys2Proof.Machine.execCapsuleAcknowledge fsn cred s
  | .lcPeriodicFlush core => Sys2Proof.Machine.execLcPeriodicFlush core s
  | .dramCommandSlot ch => Sys2Proof.Machine.execDramCommandSlot ch s
  | .dramAccessComplete ch => Sys2Proof.Machine.execDramAccessComplete ch s
  | .hbmAlert ch => Sys2Proof.Machine.execHbmAlert ch s
  | .swapLineStep id => Sys2Proof.Machine.execSwapLineStep id s
  | .migrationLineCopy die => Sys2Proof.Machine.execMigrationLineCopy die s
  | .notificationPost => Sys2Proof.Machine.execNotificationPost s
  | .hpnconsWrite v => Sys2Proof.Machine.execHpnconsWrite v s
  | .hostDataResponse line half data excl => Sys2Proof.Machine.execHostDataResponse line half data excl s
  | .homeEviction line => Sys2Proof.Machine.execHomeEviction line s
  | .snpData line half => Sys2Proof.Machine.execSnpData line half s
  | .snpInv line half => Sys2Proof.Machine.execSnpInv line half s
  | .snpCur line half => Sys2Proof.Machine.execSnpCur line half s
  | .memRd line half md => Sys2Proof.Machine.execMemRd line half md s
  | .memWr line half data mask md => Sys2Proof.Machine.execMemWr line half data mask md s
  | .biRspS line half data => Sys2Proof.Machine.execBiRspS line half data s
  | .biRspI line half data => Sys2Proof.Machine.execBiRspI line half data s
  | .functionLevelReset => Sys2Proof.Machine.execFunctionLevelReset s
  | .flitReceive port msg => Sys2Proof.Machine.execFlitReceive port msg s
  | .crcErrorReplay port => Sys2Proof.Machine.execCrcErrorReplay port s
  | .portRetrain port => Sys2Proof.Machine.execPortRetrain port s
  | .retrainTimeout port => Sys2Proof.Machine.execRetrainTimeout port s
  | .postedWriteAck id => Sys2Proof.Machine.execPostedWriteAck id s
  | .powerGood => Sys2Proof.Machine.execPowerGood s
  | .hostLinkTrained lanes rate => Sys2Proof.Machine.execHostLinkTrained lanes rate s
  | .hostLinkTimeout => Sys2Proof.Machine.execHostLinkTimeout s
  | .memoryTrained => Sys2Proof.Machine.execMemoryTrained s
  | .firmwareAuthenticate => Sys2Proof.Machine.execFirmwareAuthenticate s
  | .firmwareImageLoad img => Sys2Proof.Machine.execFirmwareImageLoad img s
  | .rollbackAdvance cred => Sys2Proof.Machine.execRollbackAdvance cred s
  | .warmReset => Sys2Proof.Machine.execWarmReset s
  | .coldReset => Sys2Proof.Machine.execColdReset s
  | .throttleUpdate pin tout => Sys2Proof.Machine.execThrottleUpdate pin tout s
  | .thermalAlert => Sys2Proof.Machine.execThermalAlert s
  | .pwrlimWrite v => Sys2Proof.Machine.execPwrlimWrite v s
  | .hclkWrite qd v => Sys2Proof.Machine.execHclkWrite qd v s
  | .tlbinv ctx v => Sys2Proof.Machine.execTlbinv ctx v s
  | .ctxend ctx v => Sys2Proof.Machine.execCtxend ctx v s
  | .qbind v => Sys2Proof.Machine.execQbind v s
  | .lcbase ctx v => Sys2Proof.Machine.execLcbase ctx v s
  | .lcflush ctx => Sys2Proof.Machine.execLcflush ctx s
  | .lcctl ctx v => Sys2Proof.Machine.execLcctl ctx v s
  | .keyctlGenerate slot => Sys2Proof.Machine.execKeyctlGenerate slot s
  | .keyctlDestroy slot => Sys2Proof.Machine.execKeyctlDestroy slot s
  | .keyctlPlain slot => Sys2Proof.Machine.execKeyctlPlain slot s
  | .missClear ctx n => Sys2Proof.Machine.execMissClear ctx n s
  | .hpsel ctx v => Sys2Proof.Machine.execHpsel ctx v s
  | .hpcnt ctx v => Sys2Proof.Machine.execHpcnt ctx v s
  | .migcmd v => Sys2Proof.Machine.execMigcmd v s
  | .swapcmd v => Sys2Proof.Machine.execSwapcmd v s
  | .causkid v => Sys2Proof.Machine.execCauskid v s
  | .sysregWrite ctx sel v => Sys2Proof.Machine.execSysregWrite ctx sel v s
  | .portTrained port lanes => Sys2Proof.Machine.execPortTrained port lanes s
  | .launchResume l => Sys2Proof.Machine.execLaunchResume l s
  | .powerLoss => Sys2Proof.Machine.execPowerLoss s

end Sys2Proof.Machine
end

