-- ==== Sys2Proof/Machine/Step.lean ====
section
/-! DEFINITION. One step of the package: the event that comes about next, or an issue of the focused quarter; and the state
that stands ready to fetch a given instruction. -/

namespace Sys2Proof.Machine

open Sys2Proof

/-- R146: one turn in 1,024 goes round the quarters, so that each arbitrates and issues within a bounded number of steps (DESIGN
CHOICE, log entry 1); the others are drawn. -/
def turnOf (n : Nat) : Nat × Option Instr := if (n + 1) % 1024 = 0 then ((n + 1) / 1024 % 6144, none) else Config.nextTurn n

/-- What goes on by itself in every step: the writes of the two flows (R243), the host's writes of registers that wait (R338), and which
threads are ready (R143). -/
def State.goOnAlone (t : State) (cycle : Nat) : State := t.pumpFlows.pumpWrites.noteReady cycle

/-- Turn and time go on, and the next unit is drawn (log entries 1 and 2). -/
def State.advance (s t : State) : State :=
  let now := s.now + 1 + Config.stepCycles s.turn
  { ({ t with now := now } : State).goOnAlone (s.now + 1) with
      turn := s.turn + 1, now := now,
      elapsed := s.elapsed + (1 + Config.stepCycles s.turn) * levelTime s.mgmt.level, focus := (turnOf s.turn).1,
      event := (turnOf s.turn).2 }

/-- What the focused quarter does next. -/
inductive Issue where
  /-- no group holds the slot -/
  | idle
  /-- an instruction and its length in bytes -/
  | instr (i : Instr) (len : Nat)
  /-- R79: no instruction -/
  | illegal
  | fetchFault (code : BitVec 16)
  /-- R330: the page that is waited for -/
  | fetchWait (page : Nat)
  deriving DecidableEq, Repr

/-- R27, R59: the instruction at the PC of the group that holds the focused quarter's slot. -/
noncomputable def State.nextIssue (s : State) : Issue :=
  match s.env? { len := 0, guard := 15, sense := 0 } with
  | none => .idle
  | some e =>
    match s.fetchInstr e.core (s.ctxOfGroup e.group) e.pc with
    | .word w => match decode w with | .ok (i, n) => .instr i n | .error _ => .illegal
    | .fault c => .fetchFault c
    | .replay p => .fetchWait p

/-- An issue of the focused quarter. -/
noncomputable def State.issueNext (s : State) : Host.Outcome State Fault Refusal :=
  match s.nextIssue with
  | .idle => .next s.idleCycle
  | .instr i n => exec i (s.fetched n)
  | .illegal => .next (s.stopAt Code.illegal)
  | .fetchFault c => .next (s.stopAt c)
  | .fetchWait p => .next (s.waitForPage p)

/-- R142: a quarter arbitrates in the cycle in which its slot comes free, and in an idle cycle. -/
def State.picks (s : State) : Host.Outcome State Fault Refusal → Host.Outcome State Fault Refusal
  | .next t => .next (t.arbitrate s.focus)
  | o => o

/-- The turn and the time go on after a step that answers a state. -/
def State.after (s : State) : Host.Outcome State Fault Refusal → Host.Outcome State Fault Refusal
  | .next t => .next (s.advance t)
  | o => o

/-- One step. An event is a step of the part, of the host or of privileged software, never an instruction of a thread. -/
noncomputable def step (s : State) : Host.Outcome State Fault Refusal :=
  match s.event with
  | some e =>
    if !s.mgmt.powered && e != .powerGood then .fault .noPower
    else if (encode e).isSome || !comesAbout s e then .next (s.advance s)
    else s.after (exec e s)
  | none => if s.mgmt.powered then (if s.mgmt.halted then .next (s.advance s) else s.after (s.picks s.issueNext)) else .fault .noPower

/-! ### A state that fetches a given instruction -/

/-- Virtual and physical address of the instruction that `withFetchWord` places; its run header's address is four less. -/
def fetchBase : Nat := 0x20000004

/-- A launch of one warp of 256 registers (log entry 12). -/
def fetchLaunch : Launch where
  ctx := 0
  queue := 0
  sub := 0
  record := BitVec.ofNat 2048 (0x20000000 + 15 * 2 ^ 416 + 2 ^ 444 + (32 + 2 * 2 ^ 32 + 2 ^ 35) * 2 ^ 1024)
  status := .running
  nextBlock := 1
  exitedBlocks := 0
  prio := 0
  promoted := 0
  eligibleSince := 0
  waiter := none
  floor := none
  time := 0
  preempted := none
  code := 0
  ridx := 0xFFFFFF
  pages := [0x2000]

def fetchBlock : Block where
  launch := 0
  linear := 0
  core := 0
  q0 := 0
  firstLine := 0
  lines := 0
  warps := [0]
  epoch := 0
  shadow := []
  saveSlot := 0
  saved := false
  departed := false

/-- A thread at the only instruction of an unguarded run that names no flag. -/
def fetchThread : Thread where
  pc := BitVec.ofNat 56 fetchBase
  pos := 0
  acked := false
  rhdr := 0x7FF80005
  runAt := BitVec.ofNat 56 (fetchBase - 4)
  fell := false
  regs := []
  preds := 0
  lcs := []
  loops := []
  hidden := []
  spill := 0
  status := .running
  readySince := 0
  readyAt := none
  notBefore := 0
  yielded := false
  wmask := 0
  causes := []
  pdaddr := 0
  owed := none

def fetchWarp : Warp where
  block := 0
  index := 0
  alloc := 256
  residence := .resident 0 0 0 0
  threads := (List.range 32).map fun l => (l, fetchThread)
  flags := []
  flagTimes := []
  pts := 0
  ots := 0
  crept := 0
  part := 32
  mmode := false
  records := []
  level := 0
  trap := none
  preempt := false
  graceOver := false
  frameKind := 0
  held := []
  suspended := []
  deferred := []
  noWatch := none
  watchQueue := none
  engineWatches := []
  saveSlot := 0
  stoppedOn := none

def fetchGroup : Group := ⟨(List.range 32).map fun l => ⟨0, l⟩, 0⟩

def fetchCtx : Ctx where
  live := true
  ended := false
  ptbase := 0
  replay := false
  svcbase := 0
  svccnt := 32
  tenant := 0
  lcbase := 0
  lcctl := 0
  lcbins := []
  memqos := 0xC8E
  misses := []
  hpsel := 0
  events := []
  eventTimes := []
  groups := []
  regions := []
  watches := []
  hints := []
  svcSeq := 0
  svc := []
  svcRung := []

/-- The page that holds the instruction: executable, readable, 512 MiB at 0x2000_0000. -/
def fetchTlb : TlbEntry := ⟨0, 0, 1, 29, 0x20000017⟩

/-- The state in which quarter 0 holds a group of one warp at an instruction whose bits are `w`, in a context whose memory is
not encrypted. -/
def State.withFetchWord (s : State) (nbits w : Nat) : State :=
  { s with
    focus := 0, event := none
    mgmt := { s.mgmt with powered := true, stage := 3, halted := false }
    mem := { s.mem.write fetchBase (bytesOf (w % 2 ^ nbits) 8) with
             homes := Tab.del s.mem.homes (fetchBase / 128), tlb := fetchTlb :: s.mem.tlb }
    warps := Tab.put s.warps 0 fetchWarp
    blocks := Tab.put s.blocks 0 fetchBlock
    launches := Tab.put s.launches 0 fetchLaunch
    ctxs := Tab.put s.ctxs 0 fetchCtx
    quarters := Tab.put s.quarters 0 ⟨some fetchGroup, 0, [], [], []⟩
    keys := Tab.put s.keys 0 .plain
    fresh := max s.fresh 1 }

end Sys2Proof.Machine
end

