-- ==== Sys2Proof/Safety.lean ====
section
/-! DEFINITION. The terms that claims are stated in: when an instruction issues, what a step keeps, and what a safe run is. -/

namespace Sys2Proof.Machine

open Sys2Proof

/-! ### When an instruction issues -/

/-- R19, R27, R73, R79: the group `e` holds the slot of the focused quarter at an instruction of this shape. The instruction is
legal, some thread executes it, no register it names has a result pending, and the flag it counts has room (R18). -/
structure Issues (s : State) (sh : Shape) (e : Env) : Prop where
  group : s.env? sh = some e
  legal : e.legal s sh = true
  ready : ∀ m ∈ e.exec, s.pendingAny m sh.regs = false
  room : ∀ f, sh.flag = some f → s.flagFull (warpsOf e.exec) (hdrFlag e.hdr f) = false
  someone : e.exec ≠ []

/-! ### What a step keeps -/

/-- A thread without its registers, its predicates and what the end of an instruction or of a run changes (R27, R107). -/
def Thread.bare (t : Thread) : Thread :=
  { t with pc := 0, pos := 0, rhdr := 0, fell := false, lcs := [], loops := [], readySince := 0, notBefore := 0, regs := [], preds := 0 }

/-- A warp without its threads, and without the mark of a suppressed watchpoint (R352). -/
def Warp.bare (w : Warp) : Warp := { w with threads := [], noWatch := none }

/-- A quarter without the group that holds its slot. -/
def Quarter.bare (q : Quarter) : Quarter := { q with slot := none }

/-- The state beside the warps, the quarters and what only observes: memory, special registers, contexts, launches, engines,
objects and the host side. -/
def State.rest (s : State) : State := { s with warps := [], quarters := [], recorders := [], laneCycles := [] }

/-- Nothing changes but registers, predicates, and where the threads of the issuing group stand. -/
structure Kept (s t : State) : Prop where
  rest : t.rest = s.rest
  bytes : ∀ a, t.mem.byte a = s.mem.byte a
  warps : ∀ w, (t.warp? w).map Warp.bare = (s.warp? w).map Warp.bare
  threads : ∀ m, (t.thread? m).map Thread.bare = (s.thread? m).map Thread.bare
  quarters : ∀ q, (t.quarter q).bare = (s.quarter q).bare
  rings : ∀ c, (t.recorder c).ring = (s.recorder c).ring

/-- As `Kept`, for an instruction that a recorder may note (R341). -/
structure Moves (s t : State) : Prop where
  rest : t.rest = s.rest
  warps : ∀ w, (t.warp? w).map Warp.bare = (s.warp? w).map Warp.bare
  threads : ∀ m, (t.thread? m).map Thread.bare = (s.thread? m).map Thread.bare
  quarters : ∀ q, (t.quarter q).bare = (s.quarter q).bare

/-- Every register but those of a list of threads and numbers is unchanged. -/
def KeepsRegs (s t : State) (l : List Member) (ds : List Nat) : Prop :=
  ∀ m r, (m ∉ l ∨ r ∉ ds) → t.reg m r = s.reg m r

/-- Every predicate but those of a list of threads and numbers is unchanged. -/
def KeepsPreds (s t : State) (l : List Member) (ps : List Nat) : Prop :=
  ∀ m p, (m ∉ l ∨ p ∉ ps) → t.pred m p = s.pred m p

/-- The instruction completes: every executing thread's register `d` becomes `v`, and nothing else changes. -/
def Writes (i : Instr) (s : State) (sh : Shape) (d : Nat) (v : Member → Word) : Prop :=
  ∀ e, Issues s sh e → ∃ t, exec i s = .next t ∧ (∀ m ∈ e.exec, t.reg m d = v m) ∧
    KeepsRegs s t e.exec [d] ∧ KeepsPreds s t [] [] ∧ Kept s t

/-- The same for the pair `d`, `d + 1`: bits [31:0] in the even register (R12). -/
def WritesPair (i : Instr) (s : State) (sh : Shape) (d : Nat) (v : Member → DWord) : Prop :=
  ∀ e, Issues s sh e → ∃ t, exec i s = .next t ∧ (∀ m ∈ e.exec, t.pair m d = v m) ∧
    KeepsRegs s t e.exec [d, d + 1] ∧ KeepsPreds s t [] [] ∧ Kept s t

/-- The same for a predicate. -/
def WritesPred (i : Instr) (s : State) (sh : Shape) (p : Nat) (v : Member → Bool) : Prop :=
  ∀ e, Issues s sh e → ∃ t, exec i s = .next t ∧ (∀ m ∈ e.exec, t.pred m p = v m) ∧
    KeepsRegs s t [] [] ∧ KeepsPreds s t e.exec [p] ∧ Kept s t

/-- The instruction completes: the `n` registers from `d` of every executing thread hold a number, lowest first. -/
def WritesRegs (i : Instr) (s : State) (sh : Shape) (d n : Nat) (v : Member → Nat) : Prop :=
  ∀ e, Issues s sh e → ∃ t, exec i s = .next t ∧ (∀ m ∈ e.exec, t.regs m d n = v m % 2 ^ (32 * n)) ∧
    KeepsRegs s t e.exec ((List.range n).map (d + ·)) ∧ KeepsPreds s t [] [] ∧ Kept s t

/-- R27: the instruction has completed for every thread of the group; `own` is the state with the instruction's own effect, and
`target` where a thread is taken. -/
def Arrives (own t : State) (e : Env) (now : Nat) (target : Member → Option VAddr) : Prop :=
  e.members.Nodup → ∀ m ∈ e.members, t.thread? m = (own.thread? m).map fun u => u.complete e.len (target m) now

/-- The instruction completes with an effect of its own, and the group goes on: beside that effect nothing changes but what
observes and where its threads stand: each at the next instruction of its run, or at the run address after it. -/
def Does (i : Instr) (s : State) (sh : Shape) (ok : Env → Prop) (own : Env → State) : Prop :=
  ∀ e, Issues s sh e → ok e → ∃ t, exec i s = .next t ∧ Kept (own e) t ∧ KeepsRegs (own e) t [] [] ∧ KeepsPreds (own e) t [] [] ∧
    Arrives (own e) t e (own e).now fun _ => none

/-- R341, R343: no record of a branch that this group takes would be drained to memory. -/
def State.unrecorded (s : State) (e : Env) : Prop := s.sys.rdbase = 0 ∨ (s.recorder e.core).branch.contains (e.q % 4) = false

/-- R106: the instruction ends its run with an own effect, and threads go to their targets, each a run header. -/
def Goes (i : Instr) (s : State) (sh : Shape) (ok : Env → Prop) (own : Env → State) (target : Env → Member → Option (BitVec 64)) : Prop :=
  ∀ e, Issues s sh e → ok e → (own e).unrecorded e →
    (∀ m ∈ e.exec, ∀ x u, target e m = some x → (own e).thread? m = some u → s.badTarget e.core (s.ctxOfGroup e.group) u x = false) →
    ∃ t, exec i s = .next t ∧ Moves (own e) t ∧ KeepsRegs (own e) t [] [] ∧ KeepsPreds (own e) t [] [] ∧
      Arrives (own e) t e s.now fun m => if m ∈ e.exec then (target e m).map (·.extractLsb' 0 56) else none

/-- The instruction completes: every executing thread's register `d` becomes a value of which `P` holds, which may rest on the
other threads of its group; nothing else changes. -/
def GivesIn (i : Instr) (s : State) (sh : Shape) (d : Nat) (P : Env → Member → Word → Prop) : Prop :=
  ∀ e, Issues s sh e → ∃ t, exec i s = .next t ∧ (∀ m ∈ e.exec, P e m (t.reg m d)) ∧
    KeepsRegs s t e.exec [d] ∧ KeepsPreds s t [] [] ∧ Kept s t

/-- R149: the executing threads in the tile of a thread. -/
def Env.inTile (e : Env) (s : State) (m k : Member) : Prop :=
  k ∈ e.exec ∧ k.wid = m.wid ∧ k.lane / s.partOf m = m.lane / s.partOf m

/-- The instruction completes: the `n` registers from `d` of every executing thread become `v`, and nothing else changes. -/
def WritesRow (i : Instr) (s : State) (sh : Shape) (ok : Env → Prop) (d n : Nat) (v : Env → Member → Nat → Word) : Prop :=
  ∀ e, Issues s sh e → ok e → ∃ t, exec i s = .next t ∧ (∀ m ∈ e.exec, ∀ j, j < n → t.reg m (d + j) = v e m j) ∧
    KeepsRegs s t e.exec ((List.range n).map (d + ·)) ∧ KeepsPreds s t [] [] ∧ Kept s t

/-- R141: the instruction faults: its group stops with one cause for each of its executing threads, and it does nothing else. -/
def Traps (i : Instr) (s : State) (sh : Shape) (ok : Env → Prop) (code : BitVec 16) : Prop :=
  ∀ e, Issues s sh e → ok e → exec i s = .next (s.raiseAt e sh.cycles (e.exec.map fun m => (m, ⟨code, 0⟩)) 0)

/-! ### Results in the forms of one operation (R63 to R65, R87) -/

/-- The instruction completes: every executing thread's register `d` becomes a value of which `P` holds, and nothing else
changes. -/
def Gives (i : Instr) (s : State) (sh : Shape) (d : Nat) (P : Member → Word → Prop) : Prop :=
  ∃ v : Member → Word, (∀ m, P m (v m)) ∧ Writes i s sh d v

/-- d := g a. -/
def Op1 (i : Instr) (len : Nat) (f : X3) (s : State) (g : Word → Word) : Prop :=
  Writes i s (shapeX3 len f [r1 f.d, r1 f.a]) f.d.toNat fun m => g (s.reg m f.a.toNat)

/-- d := g a b. -/
def Op2 (i : Instr) (len : Nat) (f : X3) (s : State) (g : Word → Word → Word) : Prop :=
  Writes i s (shapeX3 len f [r1 f.d, r1 f.a, r1 f.b]) f.d.toNat fun m => g (s.reg m f.a.toNat) (s.reg m f.b.toNat)

/-- d := g a b c. -/
def Op3 (i : Instr) (len : Nat) (f : X3) (s : State) (g : Word → Word → Word → Word) : Prop :=
  Writes i s (shapeX3 len f [r1 f.d, r1 f.a, r1 f.b, r1 f.c]) f.d.toNat fun m =>
    g (s.reg m f.a.toNat) (s.reg m f.b.toNat) (s.reg m f.c.toNat)

/-- d := g a imm. -/
def OpI (i : Instr) (len : Nat) (f : XI) (s : State) (g : Word → Word → Word) : Prop :=
  Writes i s (shapeXI len f [r1 f.d, r1 f.a]) f.d.toNat fun m => g (s.reg m f.a.toNat) f.imm

/-- d pair := g (a pair) (b pair). -/
def OpPair (i : Instr) (len : Nat) (f : X3) (s : State) (g : DWord → DWord → DWord) : Prop :=
  WritesPair i s (shapeX3 len f [r2 f.d, r2 f.a, r2 f.b]) f.d.toNat fun m => g (s.pair m f.a.toNat) (s.pair m f.b.toNat)

/-- R65: what holds of a 64-bit instruction with every field holds of its 32-bit form with the fields that it stands for. -/
def Both {F : Type} (i4 : Instr) (f4 : F) (i8 : F → Instr) (P : Instr → Nat → F → Prop) : Prop := P i4 4 f4 ∧ ∀ f, P (i8 f) 8 f

/-- R67, R70, R79: an instruction's 64-bit form has its opcode, and its fields hold what its entry accepts. -/
def Accepts (opc : BitVec 9) (i : X3 → Instr) (P : X3 → Prop) : Prop :=
  ∀ f, encode (i f) = some (Code.of64 (f.word opc)) ∧ ((i f).wf = true → P f)

def AcceptsI (opc : BitVec 9) (i : XI → Instr) (P : XI → Prop) : Prop :=
  ∀ f, encode (i f) = some (Code.of64 (f.word opc)) ∧ ((i f).wf = true → P f)

/-- R91: `wrapped` is the result modulo 2³²; under .sat the exact one is clamped to the range of its type. -/
def saturated (f : X3) (exact : Int) (wrapped : Word) : Word :=
  if f.ovf = 1#2 then
    (if f.ty = 1#4 then BitVec.ofInt 32 (max 0 (min exact (2 ^ 32 - 1))) else BitVec.ofInt 32 (max (-2 ^ 31) (min exact (2 ^ 31 - 1))))
  else wrapped

/-- R89: the condition on two values, as integers. -/
def compares {w : Nat} (code : Nat) (unsigned : Bool) (a b : BitVec w) : Prop :=
  let x : Int := if unsigned then a.toNat else a.toInt
  let y : Int := if unsigned then b.toNat else b.toInt
  (code = 0 ∧ a = b) ∨ (code = 1 ∧ a ≠ b) ∨ (code = 2 ∧ x < y) ∨ (code = 3 ∧ x ≤ y) ∨ (code = 4 ∧ y < x) ∨ (code = 5 ∧ y ≤ x) ∨
  (code = 6 ∧ a &&& b ≠ 0) ∨ (code = 7 ∧ a &&& b = 0)

/-- R98, R100, R117: a predicate written by a comparison; the destination is in D[3:0]. -/
def Tests (i : Instr) (s : State) (sh : Shape) (d : BitVec 8) (P : Member → Prop) : Prop :=
  predOf d < 12 → ∃ v : Member → Bool, (∀ m, v m = true ↔ P m) ∧ WritesPred i s sh (predOf d) v

/-! ### Bytes as a point sees them (R202, R203, R211, R236) -/

/-- A byte as a point of the memory system sees it: in its scratchpad line, in a counted line, in the point's copy where that
holds it, and otherwise at home. -/
def State.seen (s : State) (point : Nat) (a : Target) : Byte :=
  let byte : Line → Byte := fun d => d.extractLsb' (8 * a.off) 8
  if a.scratch then byte (s.scratchLine a.line).data
  else match Tab.get? s.mem.counted a.line with
    | some c => byte c.data
    | none => match s.copy? point a.line with
      | some c => if c.held.getLsbD a.off then byte c.data else s.mem.byte a.addr
      | none => s.mem.byte a.addr

/-- An access of n bytes touches a byte. -/
def Spot.touches (x : Spot) (n : Nat) (a : Target) : Prop := a.scratch = x.t.scratch ∧ x.t.addr ≤ a.addr ∧ a.addr < x.t.addr + n

/-! ### Waiting with the slot free (R144) -/

/-- The instruction gives up the slot, and its group waits as one; `own` is the state with what it does before it waits. -/
def BeginsWait (i : Instr) (s : State) (sh : Shape) (ok : Env → Prop) (own : Env → State) (kind : Env → WaitKind) (parks : Bool) : Prop :=
  ∀ e, Issues s sh e → ok e →
    let u := own e
    let w : Wait := ⟨e.members, e.len, kind e, u.now, parks⟩
    ∃ t, exec i s = .next t ∧ Tab.get? t.waits u.fresh = some w ∧ (t.quarter e.q).slot = none ∧
      (∀ m ∈ e.members, ∀ x, u.thread? m = some x → x.status = .running →
        t.thread? m = some { x with status := .waiting u.fresh }) ∧
      (∀ m, m ∉ e.members → t.thread? m = u.thread? m) ∧
      KeepsRegs u t [] [] ∧ KeepsPreds u t [] [] ∧
      t.rest = { u.rest with waits := Tab.put u.waits u.fresh w, fresh := u.fresh + 1 }

/-- A group that waits at an instruction completes it: `own` is the state with the instruction's effect, which starts from the executing
threads of the group. -/
def EndsWait (s : State) (kind : WaitKind) (guard : BitVec 4) (sense : BitVec 1) (ok : Member → List Member → Prop)
    (own : Member → List Member → State) : Prop :=
  ∀ id x m rest, Tab.get? s.waits id = some x → x.kind = kind → s.waitStands id x = true → s.waitExec x guard sense = m :: rest → ok m rest →
    exec (.waitEnd id) s = .next ((own m rest).endWait id)

/-! ### Safe runs -/

/-- R36, R423: every step takes at least one cycle, and a cycle never takes less real time than one of level 0. -/
def State.timely (s : State) : Prop := s.turn ≤ s.now ∧ s.now * cycleTime ≤ s.elapsed

/-- The machine goes on from a state. -/
def State.goesOn (s : State) : Prop := ∃ t, step s = .next t

end Sys2Proof.Machine
end

