-- ==== Sys2Proof/Certificates/Slice0/Obligations.lean ====
section
/-! DEFINITION. The statements for the provers. Each docstring names the rules of the spec that its statement formalises. -/

open Sys2Proof Sys2Proof.Machine

/-! ### Integer instructions -/

/-- R63 to R65, R90, R91: integer sums, differences and products in every form, and what they leave unchanged. R90: the lesser, the greater, the
upper half of a product, and the 64-bit multiply and add. -/
def Obligations.IntegerArithmetic : Prop :=
  (∀ (s : State) (y : BitVec 5) (x : BitVec 6) (b a d : BitVec 7),
    (Op2 (.iadd16 y x) 2 (s.form16 y x) s fun p q => p + q) ∧
    (Op2 (.isub16 y x) 2 (s.form16 y x) s fun p q => p - q) ∧
    (Op2 (.imul16 y x) 2 (s.form16 y x) s fun p q => p * q) ∧
    (Both (.iadd b a d) (s.form32 b a d) .iaddW fun i n f =>
      Op2 i n f s fun p q => saturated f (typed f.ty p + typed f.ty q) (p + q)) ∧
    (Both (.isub b a d) (s.form32 b a d) .isubW fun i n f =>
      Op2 i n f s fun p q => saturated f (typed f.ty p - typed f.ty q) (p - q)) ∧
    (Both (.imul b a d) (s.form32 b a d) .imulW fun i n f =>
      Op2 i n f s fun p q => saturated f (typed f.ty p * typed f.ty q) (p * q)) ∧
    (Both (.imad b a d) (accumulating (s.form32 b a d)) .imadW fun i n f =>
      Op3 i n f s fun p q r => saturated f (typed f.ty p * typed f.ty q + typed f.ty r) (p * q + r)) ∧
    (Both (.ineg a d) (s.form32 0 a d) .inegW fun i n f =>
      Op1 i n f s fun p => saturated f (-p.toInt) (-p)) ∧
    (Both (.iabs a d) (s.form32 0 a d) .iabsW fun i n f =>
      Op1 i n f s fun p => saturated f (max p.toInt (-p.toInt)) (if p.msb then -p else p))) ∧
  (∀ (s : State) (m : Bool) (b a d : BitVec 7),
    (Both (.imin m b a d) { s.form32 b a d with ty := pick m 0 1 } .iminW fun i n f =>
      Op2 i n f s fun p q => if typed f.ty q < typed f.ty p then q else p) ∧
    (Both (.imax m b a d) { s.form32 b a d with ty := pick m 0 1 } .imaxW fun i n f =>
      Op2 i n f s fun p q => if typed f.ty p < typed f.ty q then q else p) ∧
    (Both (.imulh m b a d) { s.form32 b a d with ty := pick m 0 1 } .imulhW fun i n f =>
      Op2 i n f s fun p q => (BitVec.ofInt 64 (typed f.ty p * typed f.ty q)).extractLsb' 32 32) ∧
    (Both (.imadw m b a d) { accumulating (s.form32 b a d) with ty := pick m 0 1 } .imadwW fun i n f =>
      WritesPair i s { shapeX3 n f [r2 f.d, r1 f.a, r1 f.b, r2 f.c] with cycles := 2 } f.d.toNat fun k =>
        widen (f.ty == 1) (s.reg k f.a.toNat) * widen (f.ty == 1) (s.reg k f.b.toNat) + s.pair k f.c.toNat))

/-- R92: sums and differences with a carry. The carry predicate, unless it is pt, is read and then written; when it is pt no predicate changes.
R93: bit counts and reversal. -/
def Obligations.CarriesAndCounts : Prop :=
  (∀ (s : State) (b a d : BitVec 7),
    let result : Instr → Nat → X3 → (Int → Int → Int → Int) → Prop := fun i n f g =>
      (f.c = 15#8 ∨ f.c.toNat < 12) →
      ∀ e, Issues s (shapeX3 n f [r1 f.d, r1 f.a, r1 f.b]) e →
        let x : Member → Int := fun m =>
          g (s.reg m f.a.toNat).toNat (s.reg m f.b.toNat).toNat (if f.c ≠ 15#8 ∧ s.pred m f.c.toNat then 1 else 0)
        ∃ t, exec i s = .next t ∧
          (∀ m ∈ e.exec, t.reg m f.d.toNat = BitVec.ofInt 32 (x m)) ∧
          (f.c ≠ 15#8 → ∀ m ∈ e.exec, t.pred m f.c.toNat = decide (x m < 0 ∨ 2 ^ 32 ≤ x m)) ∧
          KeepsRegs s t e.exec [f.d.toNat] ∧ KeepsPreds s t e.exec (if f.c = 15#8 then [] else [f.c.toNat]) ∧ Kept s t
    (Both (.iaddc b a d) (s.form32 b a d) .iaddcW fun i n f => result i n f fun p q c => p + q + c) ∧
    (Both (.isubb b a d) (s.form32 b a d) .isubbW fun i n f => result i n f fun p q c => p - q - c)) ∧
  (∀ (s : State) (a d : BitVec 7),
    let result : Instr → Nat → X3 → (Word → Word → Prop) → Prop := fun i n f P =>
      Gives i s (shapeX3 n f [r1 f.d, r1 f.a]) f.d.toNat fun m v => P (s.reg m f.a.toNat) v
    (Both (.popc a d) (s.form32 0 a d) .popcW fun i n f => result i n f fun p v =>
      v.toNat = ((List.range 32).map fun j => (p.getLsbD j).toNat).sum) ∧
    (Both (.clz a d) (s.form32 0 a d) .clzW fun i n f => result i n f fun p v =>
      v.toNat ≤ 32 ∧ (∀ j, j < v.toNat → p.getLsbD (31 - j) = false) ∧ (v.toNat < 32 → p.getLsbD (31 - v.toNat) = true)) ∧
    (Both (.ctz a d) (s.form32 0 a d) .ctzW fun i n f => result i n f fun p v =>
      v.toNat ≤ 32 ∧ (∀ j, j < v.toNat → p.getLsbD j = false) ∧ (v.toNat < 32 → p.getLsbD v.toNat = true)) ∧
    (Both (.brev a d) (s.form32 0 a d) .brevW fun i n f => result i n f fun p v => ∀ j, j < 32 → v.getLsbD j = p.getLsbD (31 - j))) ∧
  (Accepts 0x22 .iaddcW fun f => f.ovf = 0 ∧ f.ty.toNat < 2 ∧ (f.c = 15 ∨ f.c.toNat < 12)) ∧
  (Accepts 0x23 .isubbW fun f => f.ovf = 0 ∧ f.ty.toNat < 2 ∧ (f.c = 15 ∨ f.c.toNat < 12)) ∧
  (Accepts 0x2C .popcW fun f => f.b = 0 ∧ f.c = 0 ∧ f.ty = 0) ∧ (Accepts 0x2D .clzW fun f => f.b = 0 ∧ f.c = 0 ∧ f.ty = 0) ∧
  (Accepts 0x2E .ctzW fun f => f.b = 0 ∧ f.c = 0 ∧ f.ty = 0) ∧ (Accepts 0x2F .brevW fun f => f.b = 0 ∧ f.c = 0 ∧ f.ty = 0)

/-! ### Logic, shifts and bit fields -/

/-- R63 to R65, R94: logic and shifts in every register form. R95 to R97: the funnel shift, field extraction and insertion bit by bit, and the
byte permutation. -/
def Obligations.LogicShiftsAndFields : Prop :=
  (∀ (s : State) (y : BitVec 5) (x : BitVec 6) (b a d : BitVec 7),
    let shl : Word → Word → Word := fun p q => if 32 ≤ q.toNat then 0 else p <<< q.toNat
    let shr : Word → Word → Word := fun p q => if 32 ≤ q.toNat then 0 else p >>> q.toNat
    let sar : Word → Word → Word := fun p q => if 32 ≤ q.toNat then (if p.msb then BitVec.allOnes 32 else 0) else p.sshiftRight q.toNat
    (Op2 (.and16 y x) 2 (s.form16 y x) s fun p q => p &&& q) ∧
    (Op2 (.or16 y x) 2 (s.form16 y x) s fun p q => p ||| q) ∧
    (Op2 (.xor16 y x) 2 (s.form16 y x) s fun p q => p ^^^ q) ∧
    (Op2 (.shl16 y x) 2 (s.form16 y x) s shl) ∧ (Op2 (.shr16 y x) 2 (s.form16 y x) s shr) ∧
    (Op2 (.sar16 y x) 2 (s.form16 y x) s sar) ∧
    (Both (.and b a d) (s.form32 b a d) .andW fun i n f => Op2 i n f s fun p q => p &&& q) ∧
    (Both (.or b a d) (s.form32 b a d) .orW fun i n f => Op2 i n f s fun p q => p ||| q) ∧
    (Both (.xor b a d) (s.form32 b a d) .xorW fun i n f => Op2 i n f s fun p q => p ^^^ q) ∧
    (Both (.andn b a d) (s.form32 b a d) .andnW fun i n f => Op2 i n f s fun p q => p &&& ~~~q) ∧
    (Both (.not a d) (s.form32 0 a d) .notW fun i n f => Op1 i n f s fun p => ~~~p) ∧
    (Both (.shl b a d) (s.form32 b a d) .shlW fun i n f => Op2 i n f s shl) ∧
    (Both (.shr b a d) (s.form32 b a d) .shrW fun i n f => Op2 i n f s shr) ∧
    (Both (.sar b a d) (s.form32 b a d) .sarW fun i n f => Op2 i n f s sar)) ∧
  (∀ (s : State) (m : Bool) (b a d : BitVec 7),
    (Both (.shf b a d) (accumulating (s.form32 b a d)) .shfW fun i n f => Op3 i n f s fun p q r =>
      BitVec.ofNat 32 ((r.toNat * 2 ^ 32 + p.toNat) / 2 ^ min q.toNat 64)) ∧
    (Both (.bfx m b a d) { s.form32 b a d with ty := pick m 1 0 } .bfxW fun i n f =>
      Gives i s (shapeX3 n f [r1 f.d, r1 f.a, r1 f.b]) f.d.toNat fun k v =>
        let p := s.reg k f.a.toNat
        let at0 := ((s.reg k f.b.toNat).extractLsb' 0 8).toNat
        let width := min 32 ((s.reg k f.b.toNat).extractLsb' 8 8).toNat
        let bit : Nat → Bool := fun j => if at0 + j ≤ 31 then p.getLsbD (at0 + j) else f.ty == 0 && p.msb
        (∀ j, j < width → v.getLsbD j = bit j) ∧
        (∀ j, width ≤ j → j < 32 → v.getLsbD j = (f.ty == 0 && decide (0 < width) && bit (width - 1)))) ∧
    (Both (.bfi b a d) (accumulating (s.form32 b a d)) .bfiW fun i n f =>
      Gives i s (shapeX3 n f [r1 f.d, r1 f.a, r1 f.b, r1 f.c]) f.d.toNat fun k v =>
        let at0 := ((s.reg k f.b.toNat).extractLsb' 0 8).toNat
        let width := min 32 ((s.reg k f.b.toNat).extractLsb' 8 8).toNat
        ∀ j, j < 32 → v.getLsbD j =
          if at0 ≤ j ∧ j < at0 + width then (s.reg k f.a.toNat).getLsbD (j - at0) else (s.reg k f.c.toNat).getLsbD j) ∧
    (Both (.prmt b a d) (accumulating (s.form32 b a d)) .prmtW fun i n f =>
      Gives i s (shapeX3 n f [r1 f.d, r1 f.a, r1 f.b, r1 f.c]) f.d.toNat fun k v =>
        ∀ j, j < 4 →
          let sel := (s.reg k f.c.toNat).extractLsb' (4 * j) 4
          let source := (s.reg k f.b.toNat ++ s.reg k f.a.toNat).extractLsb' (8 * (sel.toNat % 8)) 8
          v.extractLsb' (8 * j) 8 = if sel.getLsbD 3 then (if source.msb then 255#8 else 0#8) else source)) ∧
  (Accepts 0x38 .shfW fun _ => True) ∧ (Accepts 0x39 .bfxW fun f => f.ty.toNat < 2) ∧ (Accepts 0x3A .bfiW fun f => f.ty = 0) ∧
  (Accepts 0x3B .prmtW fun _ => True)

/-- R65, R78: the immediate forms of the integer and logic instructions; the immediate is extended by sign. R89, R98, R99: comparisons,
selection and moves. -/
def Obligations.ImmediatesAndComparisons : Prop :=
  (∀ (s : State) (k a d : BitVec 7),
    let both : Instr → (XI → Instr) → (Word → Word → Word) → Prop := fun i4 i8 g =>
      Both i4 (s.imm32 k a d) i8 fun i n f => OpI i n f s g
    (s.imm32 k a d).imm.toInt = k.toInt ∧
    both (.iaddImm k a d) .iaddImmW (fun p q => p + q) ∧ both (.isubImm k a d) .isubImmW (fun p q => p - q) ∧
    both (.imulImm k a d) .imulImmW (fun p q => p * q) ∧ both (.andImm k a d) .andImmW (fun p q => p &&& q) ∧
    both (.orImm k a d) .orImmW (fun p q => p ||| q) ∧ both (.xorImm k a d) .xorImmW (fun p q => p ^^^ q) ∧
    both (.shlImm k a d) .shlImmW (fun p q => if 32 ≤ q.toNat then 0 else p <<< q.toNat) ∧
    both (.shrImm k a d) .shrImmW (fun p q => if 32 ≤ q.toNat then 0 else p >>> q.toNat) ∧
    both (.sarImm k a d) .sarImmW
      (fun p q => if 32 ≤ q.toNat then (if p.msb then BitVec.allOnes 32 else 0) else p.sshiftRight q.toNat) ∧
    both (.iminImm k a d) .iminImmW (fun p q => if q.toInt < p.toInt then q else p) ∧
    both (.imaxImm k a d) .imaxImmW (fun p q => if p.toInt < q.toInt then q else p) ∧
    both (.icmpImm k a d) .icmpImmW (fun p q => if p.toInt < q.toInt then 0xFFFFFFFF#32 else if p = q then 0 else 1)) ∧
  (∀ (s : State) (y : BitVec 5) (x : BitVec 6) (m : Bool) (k b a d : BitVec 7) (k14 : BitVec 14),
    (Both (.icmp m b a d) { s.form32 b a d with ty := pick m 0 1 } .icmpW fun i n f => Op2 i n f s fun p q =>
      if typed f.ty p < typed f.ty q then 0xFFFFFFFF#32 else if p = q then 0 else 1) ∧
    (Both (.icmpp m b a d) { s.form32 b a d with ty := pick m 0 1 } .icmppW fun i n f =>
      Tests i s (shapeX3 n f [r1 f.a, r1 f.b]) f.d fun t =>
        compares (condOf f.d) (f.ty == 1) (s.reg t f.a.toNat) (s.reg t f.b.toNat)) ∧
    (Both (.icmppImm m k a d) { s.imm32 k a d with d := BitVec.ofBool m ++ d } .icmppImmW fun i n f =>
      Tests i s (shapeXI n f [r1 f.a]) f.d fun t => compares (condOf f.d) f.d.msb (s.reg t f.a.toNat) f.imm) ∧
    (Both (.sel m b a d) { s.form32 b a d with scope := scopeBit m } .selW fun i n f =>
      Writes i s (shapeX3 n f [r1 f.d, r1 f.a, r1 f.b]) f.d.toNat fun t =>
        if s.pred t f.c.toNat = f.scope.getLsbD 0 then s.reg t f.b.toNat else s.reg t f.a.toNat) ∧
    (Writes (.mov16 y x) s (shapeX3 2 (s.form16 y x) [r1 (s.form16 y x).d, r1 (s.form16 y x).b]) x.toNat fun t => s.reg t y.toNat) ∧
    (Both (.mov b a d) (s.form32 b a d) .movW fun i n f =>
      Writes i s (shapeX3 n f [r1 f.d, r1 f.b]) f.d.toNat fun t => s.reg t f.b.toNat) ∧
    (Both (.movi k14 d) { s.imm32 0 0 d with imm := k14.signExtend 32 } .moviW fun i n f =>
      Writes i s (shapeXI n f [r1 f.d]) f.d.toNat fun _ => f.imm)) ∧
  (Accepts 0x1A .icmpW fun f => f.ty.toNat < 2) ∧ (Accepts 0x1B .icmppW fun f => f.ty.toNat < 2 ∧ f.d.toNat % 16 < 12 ∧ f.d.msb = false) ∧
  (AcceptsI 0x4B .icmpImmW fun _ => True) ∧ (AcceptsI 0x4C .icmppImmW fun f => f.d.toNat % 16 < 12) ∧
  (Accepts 0x16 .selW fun f => f.c = 15 ∨ f.c.toNat < 12) ∧ (Accepts 0x17 .movW fun f => f.a = f.d) ∧ (AcceptsI 0x18 .moviW fun f => f.a = 0) ∧
  decode 0 = .ok (.mov16 0 0, 2)

/-! ### Comparison, selection, addresses and predicates -/

/-- R100: 64-bit sums, differences, shifts, comparisons and addresses. R88, R101: the predicate group. PMOV.v2p writes the predicates that its
mask names and no register. -/
def Obligations.AddressesAndPredicates : Prop :=
  (∀ (s : State) (m : Bool) (k b a d : BitVec 7),
    (Both (.add64 b a d) (s.form32 b a d) .add64W fun i n f => OpPair i n f s fun p q => p + q) ∧
    (Both (.sub64 b a d) (s.form32 b a d) .sub64W fun i n f => OpPair i n f s fun p q => p - q) ∧
    (Both (.shl64 b a d) (s.form32 b a d) .shl64W fun i n f =>
      WritesPair i s (shapeX3 n f [r2 f.d, r2 f.a, r1 f.b]) f.d.toNat fun t => s.pair t f.a.toNat <<< (s.reg t f.b.toNat).toNat) ∧
    (Both (.cmp64 m b a d) { s.form32 b a d with ty := pick m 3 4 } .cmp64W fun i n f =>
      Tests i s (shapeX3 n f [r2 f.a, r2 f.b]) f.d fun t =>
        compares (condOf f.d) (f.ty == 4) (s.pair t f.a.toNat) (s.pair t f.b.toNat)) ∧
    (Both (.mad64 b a d) (accumulating (s.form32 b a d)) .mad64W fun i n f =>
      WritesPair i s { shapeX3 n f [r2 f.d, r2 f.a, r1 f.b, r2 f.c] with cycles := 2 } f.d.toNat fun t =>
        BitVec.ofInt 64 ((s.pair t f.c.toNat).toNat + (s.pair t f.a.toNat).toNat * typed f.ty (s.reg t f.b.toNat))) ∧
    (Both (.lea m b a d) { s.form32 b a d with scope := scopeBit m } .leaW fun i n f =>
      WritesPair i s (shapeX3 n f [r2 f.d, r2 f.a, r1 f.b]) f.d.toNat fun t =>
        BitVec.ofInt 64 ((s.pair t f.a.toNat).toNat +
          typed (if f.scope.getLsbD 0 then 1 else 0) (s.reg t f.b.toNat) * 2 ^ (f.c.toNat % 8))) ∧
    (Both (.add64Imm k a d) (s.imm32 k a d) .add64ImmW fun i n f =>
      WritesPair i s (shapeXI n f [r2 f.d, r2 f.a]) f.d.toNat fun t => BitVec.ofInt 64 ((s.pair t f.a.toNat).toNat + f.imm.toInt)) ∧
    (Both (.leaImm k a d) (s.imm32 k a d) .leaImmW fun i n f =>
      WritesPair i s (shapeXI n f [r2 f.d, r2 f.a]) f.d.toNat fun t => BitVec.ofInt 64 ((s.pair t f.a.toNat).toNat + f.imm.toInt))) ∧
  (∀ (s : State) (m : Bool) (b a d : BitVec 7),
    let source : Member → BitVec 8 → Bool := fun t c => s.pred t (c.toNat % 16) != c.getLsbD 4
    (Both (.plop b a d) (s.form32 b a d) .plopW fun i n f =>
      Tests i s (shapeX3 n f []) f.d fun t =>
        (match (f.d.extractLsb' 5 2).toNat with
          | 0 => source t f.a && source t f.b | 1 => source t f.a || source t f.b | _ => source t f.a != source t f.b)
          ≠ f.d.getLsbD 4) ∧
    (Both (.pmov m b a d) { s.form32 b a d with scope := scopeBit m } .pmovW fun i n f =>
      (f.scope.getLsbD 0 = false → Gives i s (shapeX3 n f [r1 f.d]) f.d.toNat fun t v =>
        (s.thread? t).isSome → ∀ j, j < 32 → v.getLsbD j = (decide (j < 12) && s.pred t j)) ∧
      (f.scope.getLsbD 0 = true → ∀ e, Issues s (shapeX3 n f [r1 f.a, r1 f.b]) e → ∃ u, exec i s = .next u ∧
        (∀ t ∈ e.exec, ∀ j, j < 12 →
          u.pred t j = if (s.reg t f.b.toNat).getLsbD j then (s.reg t f.a.toNat).getLsbD j else s.pred t j) ∧
        KeepsRegs s u [] [] ∧ KeepsPreds s u e.exec (List.range 12) ∧ Kept s u)) ∧
    (Both (.pset b a d) (s.form32 b a d) .psetW fun i n f =>
      Tests i s (shapeX3 n f [r1 f.a, r1 f.b]) f.d fun t => (s.reg t f.a.toNat).getLsbD ((s.reg t f.b.toNat).toNat % 32) = true) ∧
    (Both (.pcnt a d) (s.form32 0 a d) .pcntW fun i n f =>
      Gives i s (shapeX3 n f [r1 f.d, r1 f.a]) f.d.toNat fun t v => (s.thread? t).isSome →
        v.toNat = ((List.range 12).map fun j => (s.pred t j && (s.reg t f.a.toNat).getLsbD j).toNat).sum))

/-! ### Floating point -/

/-- R63 to R65, R114, R115: FP32 sums, differences, products and fused products: the exact result rounded once. R43, R53, R114: a NaN operand
gives the canonical NaN in every operation, mode and format, and the exact zero sums have the sign that R114 gives. R50, R56: rounding
changes no value that its format holds, in any mode. -/
def Obligations.FloatArithmetic : Prop :=
  (∀ (s : State) (y : BitVec 5) (x : BitVec 6) (b a d : BitVec 7),
    let round : X3 → Machine.Real → Word := fun f v =>
      BitVec.ofNat 32 (roundFlush fp32 (Rounding.ofCode f.rm.toNat) (f.ovf == 1) (f.ftz == 1) v)
    let value : X3 → Word → Machine.Real := fun f p => fp32.read (f.ftz == 1) p.toNat
    let mode : X3 → Rounding := fun f => Rounding.ofCode f.rm.toNat
    let add : X3 → Word → Word → Word := fun f p q => round f (Machine.Real.sum (mode f) [value f p, value f q])
    let sub : X3 → Word → Word → Word := fun f p q => round f (Machine.Real.sum (mode f) [value f p, (value f q).neg])
    let mul : X3 → Word → Word → Word := fun f p q => round f ((value f p).mul (value f q))
    let plain : Prop := ((s.form16 y x).rm = 0 ∧ (s.form16 y x).ovf = 0 ∧ (s.form16 y x).ftz = 0) ∧
      (s.form32 b a d).rm = 0 ∧ (s.form32 b a d).ovf = 0 ∧ (s.form32 b a d).ftz = 0
    plain ∧
    (let f := s.form16 y x
     Op2 (.fadd16 y x) 2 f s (add f) ∧ Op2 (.fsub16 y x) 2 f s (sub f) ∧ Op2 (.fmul16 y x) 2 f s (mul f)) ∧
    (Both (.fadd b a d) (s.form32 b a d) .faddW fun i n f => Op2 i n f s (add f)) ∧
    (Both (.fsub b a d) (s.form32 b a d) .fsubW fun i n f => Op2 i n f s (sub f)) ∧
    (Both (.fmul b a d) (s.form32 b a d) .fmulW fun i n f => Op2 i n f s (mul f)) ∧
    (Both (.ffma b a d) (accumulating (s.form32 b a d)) .ffmaW fun i n f =>
      Op3 i n f s fun p q r => round f (Machine.Real.sum (mode f) [(value f p).mul (value f q), value f r]))) ∧
  (∀ (F : Format) (m : Modes) (a b c : Nat), F = fp32 ∨ F = fp16 ∨ F = bf16 →
    (F.value a = .nan ∨ F.value b = .nan → fAdd F m a b = F.nanCode ∧ fSub F m a b = F.nanCode ∧ fMul F m a b = F.nanCode) ∧
    (F.value a = .nan ∨ F.value b = .nan ∨ F.value c = .nan → fFma F m a b c = F.nanCode) ∧
    (∀ p, F.value a = .inf p → F.value b = .inf !p → fAdd F m a b = F.nanCode) ∧
    (∀ p q x, F.value a = .inf p → F.value b = .num ⟨q, 0, x⟩ → fMul F m a b = F.nanCode ∧ fFma F m a b c = F.nanCode) ∧
    (∀ p x, F.read m.ftz a = .num ⟨p, 0, x⟩ → F.read m.ftz b = .num ⟨!p, 0, x⟩ →
      fAdd F m a b = if m.rm = .rd then 2 ^ (F.bits - 1) else 0) ∧
    (∀ p x, F.read m.ftz a = .num ⟨p, 0, x⟩ → F.read m.ftz b = .num ⟨p, 0, x⟩ → fAdd F m a b = if p then 2 ^ (F.bits - 1) else 0)) ∧
  (∀ (F : Format) (mode : Rounding) (sat : Bool) (bits : Nat) (x : Machine.Dyadic),
    F = fp32 ∨ F = fp16 ∨ F = bf16 ∨ F = e4m3 ∨ F = e5m2 ∨ F = e2m1 → bits < 2 ^ F.bits → F.value bits = .num x →
    roundTo F mode sat (.num x) = bits)

/-- R63 to R65, R89, R116, R117: selection of the lesser and the greater, and comparison. R118 to R121: rounding to an integer, classes,
scaling, exponent, mantissa and sign. -/
def Obligations.FloatSelectCompareAndFields : Prop :=
  (∀ (s : State) (y : BitVec 5) (x : BitVec 6) (m : Bool) (b a d : BitVec 7),
    let choose : Bool → X3 → Word → Word → Word := fun great f p q => BitVec.ofNat 32 (fSelect fp32 great (f.ftz == 1) p.toNat q.toNat)
    (Op2 (.fmin16 y x) 2 (s.form16 y x) s fun p q => choose false (s.form16 y x) p q) ∧
    (Op2 (.fmax16 y x) 2 (s.form16 y x) s fun p q => choose true (s.form16 y x) p q) ∧
    (Both (.fmin b a d) (s.form32 b a d) .fminW fun i n f => Op2 i n f s (choose false f)) ∧
    (Both (.fmax b a d) (s.form32 b a d) .fmaxW fun i n f => Op2 i n f s (choose true f)) ∧
    (Both (.fcmp b a d) (s.form32 b a d) .fcmpW fun i n f => Op2 i n f s fun p q =>
      match (fp32.read (f.ftz == 1) p.toNat).compare (fp32.read (f.ftz == 1) q.toNat) with
      | none => 2 | some o => if o < 0 then 0xFFFFFFFF#32 else if o = 0 then 0 else 1) ∧
    (Both (.fcmpp m b a d) { s.form32 b a d with d := BitVec.ofBool m ++ d } .fcmppW fun i n f =>
      Tests i s (shapeX3 n f [r1 f.a, r1 f.b]) f.d fun t =>
        match (fp32.read (f.ftz == 1) (s.reg t f.a.toNat).toNat).compare (fp32.read (f.ftz == 1) (s.reg t f.b.toNat).toNat) with
        | none => condOf f.d ≠ 6 ∧ (condOf f.d = 7 ∨ f.d.msb = true)
        | some o => (condOf f.d = 0 ∧ o = 0) ∨ (condOf f.d = 1 ∧ o ≠ 0) ∨ (condOf f.d = 2 ∧ o < 0) ∨ (condOf f.d = 3 ∧ o ≤ 0) ∨
            (condOf f.d = 4 ∧ 0 < o) ∨ (condOf f.d = 5 ∧ 0 ≤ o) ∨ condOf f.d = 6)) ∧
  (∀ (s : State) (m : Bool) (b a d : BitVec 7),
    (Both (.frnd a d) (s.form32 0 a d) .frndW fun i n f =>
      Op1 i n f s fun p => BitVec.ofNat 32 (fRound (Rounding.ofCode f.rm.toNat) (f.ftz == 1) p.toNat)) ∧
    (Both (.fclass a d) { s.form32 0 a d with ty := 2 } .fclassW fun i n f =>
      Op1 i n f s fun p => BitVec.ofNat 32 (fClass (Format.ofType f.ty.toNat) (p.toNat % 2 ^ (Format.ofType f.ty.toNat).bits))) ∧
    (Both (.fscale b a d) (s.form32 b a d) .fscaleW fun i n f => Op2 i n f s fun p q => BitVec.ofNat 32 (fScale (x3Modes f) p.toNat q.toInt)) ∧
    (Both (.fexpn a d) (s.form32 0 a d) .fexpnW fun i n f => Op1 i n f s fun p =>
      match fp32.read (f.ftz == 1) p.toNat with
      | .num x => if x.man = 0 then 0x80000000#32 else BitVec.ofInt 32 (Nat.log2 x.man + x.exp)
      | _ => 0x7FFFFFFF#32) ∧
    (Both (.fmant a d) (s.form32 0 a d) .fmantW fun i n f => Op1 i n f s fun p => BitVec.ofNat 32 (fMantissa (f.ftz == 1) p.toNat)) ∧
    (Both (.fcpys m b a d) { s.form32 b a d with scope := scopeBit m } .fcpysW fun i n f =>
      Gives i s (shapeX3 n f [r1 f.d, r1 f.a, r1 f.b]) f.d.toNat fun t v =>
        (∀ j, j < 31 → v.getLsbD j = (s.reg t f.a.toNat).getLsbD j) ∧ v.msb = ((s.reg t f.b.toNat).msb != f.scope.getLsbD 0))) ∧
  (Accepts 0x66 .fcmpW fun _ => True) ∧ (Accepts 0x67 .fcmppW fun f => f.d.toNat % 16 < 12 ∧ (6 ≤ condOf f.d → f.d.msb = false)) ∧
  (Accepts 0x6D .fcpysW fun f => f.ty = 0 ∧ f.rm = 0 ∧ f.ovf = 0 ∧ f.ftz = 0)

/-- R122, R123: packed arithmetic on the two halves of its operands, and the two-way dot product. R57, R58, R102 to R104, R124, R125:
conversions, packing, unpacking and block quantisation. A conversion to an integer saturates to the range of its type and gives 0 for NaN. -/
def Obligations.PackedHalvesAndConversions : Prop :=
  (∀ (s : State) (y : BitVec 5) (x : BitVec 6) (m : Bool) (b a d : BitVec 7),
    let each : Instr → Nat → X3 → (Format → Nat → Nat → Nat) → Prop := fun i n f g =>
      Gives i s (shapeX3 n f [r1 f.d, r1 f.a, r1 f.b]) f.d.toNat fun t v => ∀ h, h < 2 →
        v.extractLsb' (16 * h) 16 = BitVec.ofNat 16 (g (Format.ofType f.ty.toNat)
          ((s.reg t f.a.toNat).extractLsb' (16 * h) 16).toNat ((s.reg t f.b.toNat).extractLsb' (16 * h) 16).toNat)
    let f2 : X3 := { s.form32 b a d with ty := pick m 6 5 }
    let f3 : X3 := { accumulating (s.form32 b a d) with ty := pick m 6 5 }
    each (.hadd216 y x) 2 { s.form16 y x with ty := 6 } (fun F p q => fAdd F ⟨.rne, false, false⟩ p q) ∧
    (Both (.hadd2 m b a d) f2 .hadd2W fun i n f => each i n f fun F => fAdd F (x3Modes f)) ∧
    (Both (.hsub2 m b a d) f2 .hsub2W fun i n f => each i n f fun F => fSub F (x3Modes f)) ∧
    (Both (.hmul2 m b a d) f2 .hmul2W fun i n f => each i n f fun F => fMul F (x3Modes f)) ∧
    (Both (.hmax2 m b a d) f2 .hmax2W fun i n f => each i n f fun F => fSelect F true (f.ftz == 1)) ∧
    (Both (.hmin2 m b a d) f2 .hmin2W fun i n f => each i n f fun F => fSelect F false (f.ftz == 1)) ∧
    (Both (.hfma2 m b a d) f3 .hfma2W fun i n f =>
      Gives i s (shapeX3 n f [r1 f.d, r1 f.a, r1 f.b, r1 f.c]) f.d.toNat fun t v => ∀ h, h < 2 →
        v.extractLsb' (16 * h) 16 = BitVec.ofNat 16 (fFma (Format.ofType f.ty.toNat) (x3Modes f)
          ((s.reg t f.a.toNat).extractLsb' (16 * h) 16).toNat ((s.reg t f.b.toNat).extractLsb' (16 * h) 16).toNat
          ((s.reg t f.c.toNat).extractLsb' (16 * h) 16).toNat)) ∧
    (Both (.hdot2 m b a d) f3 .hdot2W fun i n f => Op3 i n f s fun p q r =>
      let value : Nat → Machine.Real := (Format.ofType f.ty.toNat).read (f.ftz == 1)
      BitVec.ofNat 32 (roundFlush fp32 (Rounding.ofCode f.rm.toNat) (f.ovf == 1) (f.ftz == 1)
        (Machine.Real.sum (Rounding.ofCode f.rm.toNat)
          [(value (p.toNat % 65536)).mul (value (q.toNat % 65536)), (value (p.toNat / 65536)).mul (value (q.toNat / 65536)),
           fp32.read (f.ftz == 1) r.toNat])))) ∧
  (∀ (s : State) (m : Bool) (b a d : BitVec 7),
    (Both (.i2f m a d) { s.form32 0 a d with ty := pick m 0 1, scope := 2 } .i2fW fun i n f =>
      let wide := f.ty = 3#4 ∨ f.ty = 4#4
      Writes i s { shapeX3 n f [r1 f.d, if wide then r2 f.a else r1 f.a] with cycles := if wide then 2 else 1 } f.d.toNat fun t =>
        BitVec.ofNat 32 (roundTo (Format.ofType (dstType f)) (Rounding.ofCode f.rm.toNat) (f.ovf == 1)
          (Machine.Real.ofInt (intRead f.ty.toNat (if wide then (s.pair t f.a.toNat).toNat else (s.reg t f.a.toNat).toNat))))) ∧
    (Both (.f2i m a d) { s.form32 0 a d with ty := 2, scope := scopeBit m } .f2iW fun i n f =>
      let F := Format.ofType f.ty.toNat
      let value : Member → Machine.Real := fun t => F.read (f.ftz == 1) ((s.reg t f.a.toNat).toNat % 2 ^ F.bits)
      let result : Member → Int := fun t => realToInt (Rounding.ofCode f.rm.toNat) (dstType f) (value t)
      (∀ t, (intRange (dstType f)).1 ≤ result t ∧ result t ≤ (intRange (dstType f)).2 ∧ (value t = .nan → result t = 0)) ∧
      (dstType f ≠ 3 ∧ dstType f ≠ 4 → Writes i s (shapeX3 n f [r1 f.d, r1 f.a]) f.d.toNat fun t => BitVec.ofInt 32 (result t)) ∧
      (dstType f = 3 ∨ dstType f = 4 →
        WritesPair i s { shapeX3 n f [r2 f.d, r1 f.a] with cycles := 2 } f.d.toNat fun t => BitVec.ofInt 64 (result t))) ∧
    (Both (.f2f m a d) { s.form32 0 a d with ty := 2, scope := if m then 5 else 6 } .f2fW fun i n f => Op1 i n f s fun p =>
      BitVec.ofNat 32 (convert f.ty.toNat (dstType f) (x3Modes f)
        (p.toNat % 2 ^ (if f.ty = 15#4 then 8 else (Format.ofType f.ty.toNat).bits)))) ∧
    (Both (.pack m b a d) { s.form32 b a d with ty := 2, scope := if m then 5 else 6 } .packW fun i n f => Op2 i n f s (packWords f)) ∧
    (Both (.unpack m a d) { s.form32 0 a d with ty := pick m 6 5, scope := 2 } .unpackW fun i n f =>
      WritesRegs i s (shapeX3 n f [(f.d.toNat, if f.ty = 13#4 then 4 else 2), r1 f.a]) f.d.toNat (if f.ty = 13#4 then 4 else 2) fun t =>
        unpackWord f (s.reg t f.a.toNat)) ∧
    (∀ f : X3,
      let sh : Shape := { shapeX3 8 f (regRange f.a.toNat (cvtqSource f) ++ regRange f.d.toNat (cvtqDest f) ++ [r1 f.c]) with
        cycles := 4, fits := f.a.toNat % 4 == 0 && f.d.toNat % 4 == 0 &&
          (decide (f.c.toNat < f.d.toNat) || decide (f.d.toNat + cvtqDest f ≤ f.c.toNat)) }
      ∀ e, Issues s sh e → ∃ u, exec (.cvtq f) s = .next u ∧
        (∀ t ∈ e.exec,
          let block := quantise f ((List.range (blockLength f)).map fun j =>
            element (typeBits f.ty.toNat) j (s.regs t f.a.toNat (cvtqSource f)))
          u.regs t f.d.toNat (cvtqDest f) = packNat (typeBits (dstType f)) block.2 % 2 ^ (32 * cvtqDest f) ∧
          (u.reg t f.c.toNat).toNat = block.1) ∧
        KeepsRegs s u e.exec (f.c.toNat :: (List.range (cvtqDest f)).map (f.d.toNat + ·)) ∧ KeepsPreds s u [] [] ∧ Kept s u))

/-- R127, R131, R132: a special function enters its quarter's queue with its executing lanes and source values, and counts one operation of each
of their warps on the flag that it selects; no register changes yet. In a queue that was empty its lowest set is served next, and its
results are written. R129: the exact results of the special functions, whatever the part's own function is: NaN gives the canonical NaN, and
the zeros, infinities, powers of two and integers that the rule lists give exactly what it lists. Every other result is the part's own (log
entry 4), and no NaN but the canonical one comes out. -/
def Obligations.SpecialFunctions : Prop :=
  (∀ (s : State) (m : Bool) (a d : BitVec 7),
    let enters : Special → Instr → Nat → X3 → Prop := fun fn i n f =>
      let sh : Shape := { shapeX3 n f [if fn = .sincos then r2 f.d else r1 f.d, r1 f.a] with flag := some f.fs }
      let lanes : Env → List SfuLane := fun e => e.exec.map fun t => ⟨t.wid, t.lane, f.d.toNat, s.reg t f.a.toNat⟩
      let value : Special → SfuLane → Word := fun g l => specialValue g (f.ftz == 1) f.rm.toNat l.src
      Does i s sh (fun e => (s.quarter e.q).sfuLoad < 16) (fun e =>
        let entry : SfuEntry := ⟨fn.code, f.ftz == 1, f.rm.toNat, countsOf (warpsOf e.exec) (hdrFlag e.hdr f.fs), lanes e, []⟩
        (s.countUp (warpsOf e.exec) (hdrFlag e.hdr f.fs)).modQuarter e.q fun q => { q with sfu := q.sfu ++ [entry] }) ∧
      ∀ e, Issues s sh e → (s.quarter e.q).sfu = [] → e.exec.Nodup → (∀ m ∈ e.exec, ∃ x, s.thread? m = some x ∧ x.live = true) →
        ∃ t u v, exec i s = .next t ∧ exec (.sfuService e.q) t = .next u ∧ exec (.sfuResultWrite e.q) u = .next v ∧
          (∀ l ∈ lowestSet (lanes e), v.reg ⟨l.wid, l.lane⟩ l.d = value (if fn = .sincos then .sin else fn) l ∧
            (fn = .sincos → v.reg ⟨l.wid, l.lane⟩ (l.d + 1) = value .cos l)) ∧
          ∀ m r, (∀ l ∈ lowestSet (lanes e), ⟨l.wid, l.lane⟩ ≠ m ∨ r ≠ l.d ∧ (fn = .sincos → r ≠ l.d + 1)) → v.reg m r = s.reg m r
    let f32 : X3 := { s.form32 0 a d with ty := 2, fs := flagBit m }
    Both (.sin m a d) f32 .sinW (enters .sin) ∧ Both (.cos m a d) f32 .cosW (enters .cos) ∧
    Both (.sincos m a d) f32 .sincosW (enters .sincos) ∧ Both (.sinpi m a d) f32 .sinpiW (enters .sinpi) ∧
    Both (.cospi m a d) f32 .cospiW (enters .cospi) ∧ Both (.exp2 m a d) f32 .exp2W (enters .exp2) ∧
    Both (.log2 m a d) f32 .log2W (enters .log2) ∧ Both (.rcp m a d) f32 .rcpW (enters .rcp) ∧
    Both (.rsqrt m a d) f32 .rsqrtW (enters .rsqrt) ∧ Both (.sqrt m a d) f32 .sqrtW (enters .sqrt) ∧
    Both (.tanh m a d) f32 .tanhW (enters .tanh)) ∧
  (∀ (fn : Special) (ftz : Bool) (rm : Nat) (a : Word),
    (fp32.value a.toNat = .nan ∨ fp32.value (specialValue fn ftz rm a).toNat = .nan → specialValue fn ftz rm a = 0x7FC00000#32) ∧
    (fn = .rcp → a = 0#32 → specialValue fn ftz rm a = 0x7F800000#32) ∧
    (fn = .rcp → a = 0x80000000#32 → specialValue fn ftz rm a = 0xFF800000#32) ∧
    (fn = .rcp → a = 0x40000000#32 → specialValue fn ftz rm a = 0x3F000000#32) ∧
    (fn = .rsqrt → a = 0x40800000#32 → specialValue fn ftz rm a = 0x3F000000#32) ∧
    (fn = .sqrt → a = 0x40800000#32 → specialValue fn ftz rm a = 0x40000000#32) ∧
    (fn = .sqrt → a = 0xBF800000#32 → specialValue fn ftz rm a = 0x7FC00000#32) ∧
    (fn = .exp2 → a = 0#32 → specialValue fn ftz rm a = 0x3F800000#32) ∧
    (fn = .log2 → a = 0#32 → specialValue fn ftz rm a = 0xFF800000#32) ∧
    (fn = .log2 → a = 0x41000000#32 → specialValue fn ftz rm a = 0x40400000#32) ∧
    (fn = .cospi → a = 0x3F800000#32 → specialValue fn ftz rm a = 0xBF800000#32) ∧
    (fn = .sin → a = 0x80000000#32 → specialValue fn ftz rm a = 0x80000000#32))

/-! ### Control and sequencing -/

/-- R27, R73: an instruction whose own effect is done completes for every thread of its group. A thread with instructions left in its run stands
at the next one; otherwise it stands at a run address, and the group gives up the issue slot. -/
def Obligations.CompletionMovesTheGroupOn : Prop :=
  ∀ (s u : State) (sh : Shape) (body : Env → State → Effect) (e : Env), Issues s sh e → body e s = .done u →
    let t := s.issue sh body
    (u.now = s.now → Arrives u t e s.now fun _ => none) ∧
    (e.pos + 1 < hdrLen e.hdr → (t.quarter e.q).slot = (u.quarter e.q).slot) ∧
    (hdrLen e.hdr ≤ e.pos + 1 → (t.quarter e.q).slot = none) ∧
    ∀ (x : Thread) (len : Nat), x.pos.toNat + 1 < hdrLen x.rhdr →
      (x.complete len none s.now).pc = x.pc + BitVec.ofNat 56 len ∧ (x.complete len none s.now).pos = x.pos + 1 ∧
      (x.complete len none s.now).rhdr = x.rhdr

/-- R107: the check at a run address. The innermost loop that ends there counts down, and goes back to its start unless its count is then zero,
when it is removed and the loop around it is checked. R107, R108: LOOP makes a loop active, or passes over its body when the count is zero;
LBRK removes the loop that holds a counter with every loop inside it and goes to its end. Either faults with LOOPSTATE where the rule says. -/
def Obligations.Loops : Prop :=
  (∀ (t : Thread) (len now : Nat) (target : Option VAddr) (l : Loop) (rest : List Loop),
    hdrLen t.rhdr ≤ t.pos.toNat + 1 → t.loops = l :: rest → target.getD (t.pc + BitVec.ofNat 56 len) = l.stop →
    (t.lc l.lcn ≠ 1 → (t.complete len target now).pc = l.start ∧ (t.complete len target now).loops = t.loops ∧
      (t.complete len target now).lc l.lcn = t.lc l.lcn - 1 ∧ (t.complete len target now).rhdr = 0) ∧
    (t.lc l.lcn = 1 → rest = [] → (t.complete len target now).pc = l.stop ∧ (t.complete len target now).loops = [] ∧
      (t.complete len target now).lc l.lcn = 0) ∧
    (∀ k ks, t.lc l.lcn = 1 → rest = k :: ks → k.stop ≠ l.stop →
      (t.complete len target now).pc = l.stop ∧ (t.complete len target now).loops = rest) ∧
    (∀ k ks, t.lc l.lcn = 1 → rest = k :: ks → k.stop = l.stop → k.lcn ≠ l.lcn → t.lc k.lcn ≠ 1 →
      (t.complete len target now).pc = k.start ∧ (t.complete len target now).loops = rest ∧
      (t.complete len target now).lc k.lcn = t.lc k.lcn - 1 ∧ (t.complete len target now).lc l.lcn = 0)) ∧
  (∀ (s : State) (off : BitVec 12) (lcn : BitVec 2) (cnt d : BitVec 7),
    let f4 : XI := { s.imm32 0 0 cnt with a := lcn.zeroExtend 8, imm := off.zeroExtend 32 }
    let stop : Env → XI → VAddr := fun e f => BitVec.ofNat 56 (e.pc + e.len + 2 * (f.imm.toNat % 4096))
    let taken : Env → Nat → Prop := fun e n => ∀ m ∈ e.exec, ∃ u, s.thread? m = some u ∧ u.loops.length < 3 ∧ ∀ l ∈ u.loops, l.lcn ≠ n
    (Both (.loop off lcn cnt) f4 .loopW fun i n f =>
      Goes i s { shapeXI n f [r1 f.d] with place := .ending } (fun e => taken e f.a.toNat)
        (fun e => (e.exec.filter fun m => s.reg m f.d.toNat != 0).foldl (fun t m => t.modThread m fun u =>
          { u.setLc f.a.toNat (s.reg m f.d.toNat) with loops := ⟨f.a.toNat, BitVec.ofNat 56 (e.pc + e.len), stop e f⟩ :: u.loops }) s)
        fun e m => if s.reg m f.d.toNat = 0 then some ((stop e f).zeroExtend 64) else none) ∧
    (Both (.loop off lcn cnt) f4 .loopW fun i n f => ∀ e, Issues s { shapeXI n f [r1 f.d] with place := .ending } e →
      (∀ m ∈ e.exec, ∃ u, s.thread? m = some u ∧ (3 ≤ u.loops.length ∨ ∃ l ∈ u.loops, l.lcn = f.a.toNat)) →
      exec i s = .next (s.raiseAt e 1 (allCauses e.exec Code.loopState 0) 0)) ∧
    (Both (.lbrk d) (s.form32 0 0 d) .lbrkW fun i n f =>
      Goes i s { shapeX3 n f [] with place := .ending }
        (fun e => ∀ m ∈ e.exec, ∃ u, s.thread? m = some u ∧ ∃ l ∈ u.loops, l.lcn = f.d.toNat)
        (fun e => e.exec.foldl (fun t m => t.modThread m fun u => u.breakLoop f.d.toNat) s)
        fun _ m => (s.thread? m).bind fun u => (u.loops.find? (·.lcn == f.d.toNat)).map (·.stop.zeroExtend 64)) ∧
    (Both (.lbrk d) (s.form32 0 0 d) .lbrkW fun i n f => ∀ e, Issues s { shapeX3 n f [] with place := .ending } e →
      (∀ m ∈ e.exec, ∃ u, s.thread? m = some u ∧ ∀ l ∈ u.loops, l.lcn ≠ f.d.toNat) →
      exec i s = .next (s.raiseAt e 1 (allCauses e.exec Code.loopState 0) 0)) ∧
    (∀ (u : Thread) (inner outer : List Loop) (l : Loop), u.loops = inner ++ l :: outer → (∀ k ∈ inner, k.lcn ≠ l.lcn) →
      (u.breakLoop l.lcn).loops = outer ∧ ∀ k ∈ inner ++ [l], (u.breakLoop l.lcn).lc k.lcn = 0))

/-- R106: branches go to pc + 2 × sext(offset), or to the address in a pair, and change nothing else; a target that is no run header faults with
BADTARGET, with nothing done. R30, R106: a call pushes the address after it and goes to its target; while no hidden stack is full the push
is its whole own effect. A return pops an address and goes there. -/
def Obligations.BranchesCallsAndReturns : Prop :=
  (∀ (s : State) (j : BitVec 21) (a : BitVec 7),
    let relative : Instr → Nat → XI → Prop := fun i n f =>
      Goes i s { shapeXI n f [] with place := .ending } (fun _ => True) (fun _ => s) fun e _ =>
        some (BitVec.ofInt 64 (e.pc + 2 * f.imm.toInt))
    let absolute : Instr → Nat → X3 → Prop := fun i n f =>
      Goes i s { shapeX3 n f [r2 f.a] with place := .ending } (fun _ => True) (fun _ => s) fun _ m => some (s.pair m f.a.toNat)
    let refuses : Instr → Nat → X3 → Prop := fun i n f =>
      ∀ e, Issues s { shapeX3 n f [r2 f.a] with place := .ending } e →
        let bad := e.exec.filter fun m => match s.thread? m with
          | some u => s.badTarget e.core (s.ctxOfGroup e.group) u (s.pair m f.a.toNat) | none => false
        bad ≠ [] → exec i s = .next (s.raiseAt e 1 (bad.map fun m => (m, ⟨Code.badTarget, s.pair m f.a.toNat⟩)) 0)
    (Both (.bra j) { s.imm32 0 0 0 with imm := j.signExtend 32 } .braW relative) ∧
    (Both (.brx a) (s.form32 0 a 0) .brxW absolute) ∧ (Both (.brx a) (s.form32 0 a 0) .brxW refuses)) ∧
  (∀ (s : State) (j : BitVec 21) (a : BitVec 7),
    let pushed : Env → State := fun e => (e.forEach s fun m t => t.push m (BitVec.ofNat 56 (e.pc + e.len))).2
    let fits : Env → Prop := fun e => (e.forEach s fun m t => t.push m (BitVec.ofNat 56 (e.pc + e.len))).1 = []
    (Both (.call j) { s.imm32 0 0 0 with imm := j.signExtend 32 } .callW fun i n f =>
      Goes i s { shapeXI n f [] with place := .ending } fits pushed fun e _ => some (BitVec.ofInt 64 (e.pc + 2 * f.imm.toInt))) ∧
    (Both (.callx a) (s.form32 0 a 0) .callxW fun i n f =>
      Goes i s { shapeX3 n f [r2 f.a] with place := .ending } fits pushed fun _ m => some (s.pair m f.a.toNat)) ∧
    (∀ e : Env, e.exec.Nodup → (∀ m ∈ e.exec, (s.warp? m.wid).isSome ∧ ∃ u, s.thread? m = some u ∧ u.hidden.length < 16) →
      fits e ∧ pushed e = e.exec.foldl (fun t m => t.modThread m fun u =>
        { u with hidden := BitVec.ofNat 56 (e.pc + e.len) :: u.hidden }) s) ∧
    (Both .ret (s.form32 0 0 0) .retW fun i n f =>
      Goes i s { shapeX3 n f [] with place := .ending }
        (fun e => e.exec.Nodup ∧ ∀ m ∈ e.exec, ∃ u ra rest, s.thread? m = some u ∧ u.hidden = ra :: rest)
        (fun e => e.exec.foldl (fun t m => t.modThread m fun u => { u with hidden := u.hidden.tail }) s)
        fun _ m => (s.thread? m).bind fun u => u.hidden.head?.map (·.zeroExtend 64)) ∧
    (Both .ret (s.form32 0 0 0) .retW fun i n f => ∀ e, Issues s { shapeX3 n f [] with place := .ending } e →
      (∀ m ∈ e.exec, ∃ u, s.thread? m = some u ∧ u.hidden = [] ∧ u.spill = 0) →
      exec i s = .next (s.raiseAt e 1 (allCauses e.exec Code.retEmpty 0) 0)))

/-- R109, R110, R112: EXIT ends its threads; YIELD, WAITF and SLEEP only delay a thread's next run; NOP has no effect. -/
def Obligations.ExitAndWaits : Prop :=
  ∀ (s : State) (k : BitVec 12) (n14 : BitVec 14) (f9 : XS),
    let each : Instr → Shape → (Thread → Thread) → Prop := fun i sh g =>
      Does i s { sh with place := .ending } (fun _ => True) fun e => e.exec.foldl (fun t m => t.modThread m g) s
    (Both .exit (s.form32 0 0 0) .exitW fun i n f =>
      each i (shapeX3 n f []) fun u => { u with status := .exited, hidden := [], spill := 0, loops := [] }) ∧
    (Both .yield (s.form32 0 0 0) .yieldW fun i n f => each i (shapeX3 n f []) fun u => { u with yielded := true }) ∧
    (Both (.waitf k) { s.imm32 0 0 0 with imm := k.zeroExtend 32 } .waitfW fun i n f =>
      each i (shapeXI n f []) fun u => { u with wmask := f.imm.extractLsb' 0 12 }) ∧
    (Both (.sleep n14) { s.imm32 0 0 0 with imm := n14.zeroExtend 32 } .sleepW fun i n f =>
      each i (shapeXI n f []) fun u => if f.imm = 0 then { u with yielded := true } else { u with notBefore := s.now + f.imm.toNat }) ∧
    Does .nop s (shapeXS 4 (s.sys32 0 0 0) []) (fun _ => True) (fun _ => s) ∧
    Does (.nopW f9) s (shapeXS 8 f9 []) (fun _ => True) fun _ => s

/-- R35 to R37, R111, R268: SVAL writes the value that its selector names, a pair for a value of 64 bits, and the warps acquire from the
completions of the flags it shows at zero. -/
def Obligations.SystemValues : Prop :=
  ∀ (s : State) (sel d : BitVec 7),
    (Both (.sval sel d) { s.imm32 0 0 d with imm := sel.zeroExtend 32 } .svalW fun i n f =>
      let wide := svalWidth f.imm.toNat == some 64
      Does i s { shapeXI n f [if wide then r2 f.d else r1 f.d] with fits := (svalWidth f.imm.toNat).isSome } (fun _ => True) fun e =>
        (warpsOf e.exec).foldl (fun t w => t.modWarp w fun x => x.observeFlags (x.shownZero f.imm.toNat))
          (if wide then e.writePair s f.d.toNat fun m => BitVec.ofNat 64 (s.sval e m f.imm.toNat)
           else e.write s f.d.toNat fun m => BitVec.ofNat 32 (s.sval e m f.imm.toNat))) ∧
    ∀ (e : Env) (m : Member) (w : Warp) (t : Thread), s.warp? m.wid = some w → s.thread? m = some t →
      s.sval e m 0x00 = e.pc ∧ s.sval e m 0x01 = e.pos ∧ s.sval e m 0x02 = t.hidden.length + t.spill.toNat ∧
      s.sval e m 0x04 = w.alloc ∧ s.sval e m 0x05 = w.pts.toNat ∧ s.sval e m 0x07 = (t.lc 0).toNat ∧
      s.sval e m 0x0A = t.preds.toNat ∧ s.sval e m 0x0C = s.ctxOf m.wid ∧ s.sval e m 0x20 = m.lane ∧ s.sval e m 0x21 = w.index ∧
      s.sval e m 0x24 = w.part ∧ s.sval e m 0x26 = w.liveMask.toNat ∧ s.sval e m 0x64 = w.level ∧
      (∀ k, k < 12 → s.sval e m (0x10 + k) = (w.flag k).toNat)

/-! ### Cross-lane instructions -/

/-- R149, R152, R153: SHFL and PAIRX read the register of another executing thread of the tile; a thread whose partner is out of range or not
executing keeps its own value. -/
def Obligations.ShuffleAndPairExchange : Prop :=
  (∀ (s : State) (m : Bool) (b a d : BitVec 7),
    (Both (.shfl m b a d) { s.form32 b a d with scope := 2, rm := if m then 3 else 0 } .shflW fun i n f =>
      GivesIn i s (shapeXL n f [r1 f.d, r1 f.a, r1 f.b]) f.d.toNat fun e t v =>
        let T := s.partOf t
        let own := t.lane % T
        let b := s.reg t f.b.toNat
        let j : Int := match f.rm.toNat with
          | 0 => b.toNat | 1 => (own + b.toInt) % T | 2 => own + b.toInt | _ => (BitVec.ofNat 32 own ^^^ b).toNat
        (∀ k, e.inTile s t k → (k.lane : Int) = t.lane / T * T + j → 0 ≤ j → j < T → v = s.reg k f.a.toNat) ∧
        ((j < 0 ∨ T ≤ j ∨ ∀ k, e.inTile s t k → (k.lane : Int) ≠ t.lane / T * T + j) → v = s.reg t f.a.toNat)) ∧
    (Both (.pairx m b a d) { s.form32 b a d with scope := if m then 3 else 2, ty := pick m 0 6 } .pairxW fun i n f =>
      GivesIn i s (shapeXL n f [r1 f.d, r1 f.a]) f.d.toNat fun e t v =>
        let dist := 2 ^ (f.b.toNat % 8)
        let p := (BitVec.ofNat 5 t.lane ^^^ BitVec.ofNat 5 dist).toNat
        let flip : Word := if f.ty = 2 then 0x80000000#32 else 0x80008000#32
        (dist < s.partOf t → ∀ k, e.inTile s t k → k.lane = p →
          v = if t.lane < p ∧ f.scope.getLsbD 0 then s.reg k f.a.toNat ^^^ flip else s.reg k f.a.toNat) ∧
        ((s.partOf t ≤ dist ∨ ∀ k, e.inTile s t k → k.lane ≠ p) → v = s.reg t f.a.toNat))) ∧
  (Accepts 0x90 .shflW fun f => f.ty = 0) ∧
  (Accepts 0x91 .pairxW fun f => f.b.toNat < 5 ∧ (f.scope.getLsbD 0 = true → f.ty.toNat ∈ [2, 5, 6]) ∧ (f.scope.getLsbD 0 = false → f.ty = 0))

/-- R154, R155: ballots, votes and matches over the executing threads of each tile. R156: REDUX reduces the values of a tile, and SCAN those of
its lanes up to or below each one. -/
def Obligations.VotesReductionsAndScans : Prop :=
  (∀ (s : State) (m : Bool) (a d : BitVec 7),
    let votes : X3 → Member → Prop := fun f k => s.pred k (f.a.toNat % 16) ≠ f.a.getLsbD 4
    (Both (.vote m a d) { s.form32 0 a d with scope := 2, rm := if m then 1 else 0 } .voteW fun i n f =>
      (f.rm = 0 → GivesIn i s (shapeXL n f [r1 f.d]) f.d.toNat fun e t v =>
        ∀ j, j < 32 → (v.getLsbD j = true ↔ ∃ k, e.inTile s t k ∧ k.lane = j ∧ votes f k)) ∧
      (f.rm ≠ 0 → f.d.toNat % 16 < 12 → ∀ e, Issues s (shapeXL n f []) e → ∃ u, exec i s = .next u ∧
        (∀ t ∈ e.exec, u.pred t (f.d.toNat % 16) = true ↔
          (f.rm = 1 ∧ ∃ k, e.inTile s t k ∧ votes f k) ∨ (f.rm = 2 ∧ ∀ k, e.inTile s t k → votes f k) ∨
          (f.rm = 3 ∧ ((∀ k, e.inTile s t k → votes f k) ∨ ∀ k, e.inTile s t k → ¬votes f k))) ∧
        KeepsRegs s u [] [] ∧ KeepsPreds s u e.exec [f.d.toNat % 16] ∧ Kept s u)) ∧
    (Both (.matchL m a d) { s.form32 0 a d with scope := if m then 3 else 2 } .matchLW fun i n f =>
      GivesIn i s (shapeXL n f [r1 f.d, r1 f.a]) f.d.toNat fun e t v =>
        let same : Member → Prop := fun k => s.reg k f.a.toNat = s.reg t f.a.toNat
        (f.scope.getLsbD 0 = false → ∀ j, j < 32 → (v.getLsbD j = true ↔ ∃ k, e.inTile s t k ∧ k.lane = j ∧ same k)) ∧
        (f.scope.getLsbD 0 = true → (∀ k, e.inTile s t k → same k) → ∀ j, j < 32 →
          (v.getLsbD j = true ↔ ∃ k, e.inTile s t k ∧ k.lane = j)) ∧
        (f.scope.getLsbD 0 = true → (∃ k, e.inTile s t k ∧ ¬same k) → v = 0))) ∧
  (∀ (s : State) (m : Bool) (b a d : BitVec 7),
    (Both (.redux m b a d) { s.form32 b a d with scope := 2, ty := pick m 0 2 } .reduxW fun i n f =>
      GivesIn i s { shapeXL n f [r1 f.d, r1 f.a] with cycles := 2 } f.d.toNat fun e t v =>
        v = reduceList f ((e.tile s t).map fun k => s.reg k f.a.toNat)) ∧
    (Both (.scan m b a d) { s.form32 b a d with scope := if m then 3 else 2 } .scanW fun i n f =>
      GivesIn i s { shapeXL n f [r1 f.d, r1 f.a] with cycles := 2 } f.d.toNat fun e t v =>
        v = reduceList f (((e.tile s t).filter fun k => decide (k.lane < t.lane ∨ k.lane = t.lane ∧ f.scope.getLsbD 0 = false)).map fun k =>
          s.reg k f.a.toNat)) ∧
    ∀ (f : X3) (l : List Word),
      (f.ty ≠ 2 → f.b.toNat % 8 = 0 → reduceList f l = l.foldl (· + ·) 0) ∧
      (f.ty ≠ 2 → f.b.toNat % 8 = 3 → reduceList f l = l.foldl (· &&& ·) (BitVec.allOnes 32)) ∧
      (f.ty ≠ 2 → f.b.toNat % 8 = 4 → reduceList f l = l.foldl (· ||| ·) 0) ∧
      (f.ty ≠ 2 → f.b.toNat % 8 = 5 → reduceList f l = l.foldl (· ^^^ ·) 0) ∧
      (f.ty ≠ 2 → f.b.toNat % 8 = 1 → l ≠ [] → reduceList f l ∈ l ∧ ∀ x ∈ l, typed f.ty (reduceList f l) ≤ typed f.ty x) ∧
      (f.ty ≠ 2 → f.b.toNat % 8 = 2 → l ≠ [] → reduceList f l ∈ l ∧ ∀ x ∈ l, typed f.ty x ≤ typed f.ty (reduceList f l))) ∧
  (Accepts 0x92 .voteW fun f => f.rm ≠ 0 → f.d.toNat < 12) ∧ (Accepts 0x95 .matchLW fun f => f.b = 0)

/-- R148, R151, R157: PARTSET sets PART of each warp of the group; LSYNC acquires at warp scope once earlier loads of the warps have their
values. -/
def Obligations.PartsetAndLaneSync : Prop :=
  ∀ (s : State) (b3 : BitVec 3),
    (Both (.partset b3) { s.form32 0 0 0 with b := b3.zeroExtend 8 } .partsetW fun i n f =>
      Does i s { shapeX3 n f [] with place := .leading } (fun _ => True) fun e =>
        (warpsOf e.exec).foldl (fun t w => t.modWarp w fun x => { x with part := 2 ^ (f.b.toNat % 8) }) s) ∧
    (Both .lsync { s.form32 0 0 0 with scope := 2 } .lsyncW fun i n f =>
      Does i s (shapeXL n f []) (fun e => ∀ w ∈ warpsOf e.exec, s.warpAwaits w = false) fun e =>
        (warpsOf e.exec).foldl State.acquire s)

/-! ### Loads, stores and atomics -/

/-- R17, R71, R204, R208, R219, R220: a load whose accesses pass their checks is outstanding: one destination for each executing thread, counted
once for each warp on the selected flag. No register has changed yet. R24, R220: an access that is not aligned to its size traps with
MISALIGN at its address, and nothing is performed. -/
def Obligations.LoadsIssueOrTrap : Prop :=
  (∀ (s : State) (m : Bool) (b a d : BitVec 7),
    let loads : Bool → (XM → LoadKind) → Instr → Nat → XM → Prop := fun own kind i n f =>
      let tries : Env → Attempt := fun e => e.attempt s (e.loadSpot f own)
      let begun : Env → State := fun e => ((tries e).t.recordRaces (tries e).reports).beginLoad e f (kind f) (f.var.getLsbD 0) (tries e).spots
      let ok : Env → Prop := fun e => (tries e).stops = [] ∧ ((tries e).reports = [] ∨ s.sys.rdbase = 0) ∧
        ∀ w ∈ warpsOf e.exec, s.absentLoads w < 8
      Does i s { shapeMem n f own with flag := some f.fs } ok begun ∧
      ∀ e, Issues s { shapeMem n f own with flag := some f.fs } e → ok e →
        (tries e).spots.map (fun x => (x.m, x.va)) = e.exec.map (fun m => (m, s.addressOf own m f.a f.c (2 ^ f.size.toNat))) ∧
        (∃ op, Tab.get? (begun e).mem.ops s.fresh = some op ∧ op.kind = .load (f.var.getLsbD 0) ∧
          op.dests.map (fun x => (x.wid, x.lane, x.reg, x.size, x.sext)) =
            e.exec.map (fun m => (m.wid, m.lane, f.d.toNat, 2 ^ f.size.toNat, f.var.getLsbD 3)) ∧
          op.flags = countsOf (warpsOf e.exec) (hdrFlag e.hdr f.fs)) ∧
        (∀ k, hdrFlag e.hdr f.fs = some k → ∀ w ∈ warpsOf e.exec, ∀ x y, s.warp? w = some x → (begun e).warp? w = some y →
          y.flag k = x.flag k + 1) ∧
        KeepsRegs s (begun e) [] [] ∧ KeepsPreds s (begun e) [] []
    Both (.ld m b a d) (s.mem32 m b a d) .ldW (loads false loadKind) ∧
    Both (.ldro m b a d) (s.mem32 m b a d) .ldroW (loads false fun _ => .readOnly) ∧
    Both (.lds m b a d) (s.mem32 m b a d) .ldsW (loads true fun _ => .leased)) ∧
  (∀ (s : State) (m : Bool) (b a d : BitVec 7),
    let traps : Bool → Option (BitVec 1) → Instr → Nat → XM → Prop := fun own flag i n f =>
      ∀ e, Issues s { shapeMem n f own with flag := flag } e →
        let at0 : Member → Nat := fun m => s.addressOf own m f.a f.c (2 ^ f.size.toNat)
        (∀ m ∈ e.exec, at0 m % 2 ^ f.size.toNat ≠ 0 ∧ (own = false → at0 m < 2 ^ 56)) →
        exec i s = .next (s.raiseAt e 1 (e.exec.map fun m => (m, ⟨Code.misalign, BitVec.ofNat 64 (at0 m)⟩)) 0)
    Both (.ld m b a d) (s.mem32 m b a d) .ldW (fun i n f => traps false (some f.fs) i n f) ∧
    Both (.ldro m b a d) (s.mem32 m b a d) .ldroW (fun i n f => traps false (some f.fs) i n f) ∧
    Both (.lds m b a d) (s.mem32 m b a d) .ldsW (fun i n f => traps true (some f.fs) i n f) ∧
    Both (.st b a d) (s.mem32 false b a d) .stW (fun i n f => traps false none i n f) ∧
    Both (.sts b a d) (s.mem32 false b a d) .stsW (fun i n f => traps true none i n f))

/-- R201, R202, R205, R219, R220: a store writes its threads' bytes where the points of their cores see them, the higher lane last, and every
other byte is seen as before, at every point, but where a clean copy has made room (R3). No register or predicate changes. R212: a counted
fill writes whole lines of a declared region; one that does not faults with CRSTATE. -/
def Obligations.StoresAndCountedFills : Prop :=
  (∀ (s : State) (b a d : BitVec 7),
    let stores : Bool → Instr → Nat → XM → Prop := fun own i n f =>
      let size := 2 ^ f.size.toNat
      ∀ e, Issues s (shapeMem n f own) e →
        let tries := e.attempt s (e.storeSpot f own)
        tries.stops = [] → (tries.reports = [] ∨ s.sys.rdbase = 0) → (∀ m ∈ e.exec, s.threadAwaits m = false) →
        f.var.getLsbD 0 = false → s.canStore e.core (globalLinesOf tries.spots) = true →
        ∃ t, exec i s = .next t ∧ KeepsRegs s t [] [] ∧ KeepsPreds s t [] [] ∧
          tries.spots.map (fun x => (x.m, x.va)) = e.exec.map (fun m => (m, s.addressOf own m f.a f.c size)) ∧
          (∀ p x, (∀ k ∈ tries.spots, ¬k.touches size x) → t.seen p x = s.seen p x ∨
            ∃ c, s.copy? p x.line = some c ∧ c.dirty = 0 ∧ t.copy? p x.line = none) ∧
          (∀ before k after, tries.spots = before ++ k :: after → ∀ j, j < size →
            (∀ k' ∈ after, ¬k'.touches size ⟨k.t.scratch, k.t.addr + j⟩) →
            t.seen (s.corePoint (s.coreOf k.m.wid)) ⟨k.t.scratch, k.t.addr + j⟩ =
              BitVec.ofNat 8 (s.regs k.m f.d.toNat (if size ≤ 4 then 1 else size / 4) / 256 ^ j)) ∧
          ∀ p x, t.mem.byte x = s.mem.byte x ∧ (t.home p).wts = (s.home p).wts
    Both (.st b a d) (s.mem32 false b a d) .stW (stores false) ∧ Both (.sts b a d) (s.mem32 false b a d) .stsW (stores true)) ∧
  (∀ (s : State) (f : XM) (own : Bool), f.var.getLsbD 0 = true →
    let i : Instr := if own then .stsW f else .stW f
    let tries : Env → Attempt := fun e => e.attempt s (e.storeSpot f own)
    let data : Env → List (Spot × Nat) := fun e => (tries e).spots.map fun x => (x, s.regs x.m f.d.toNat (regsOfSize (2 ^ f.size.toNat)))
    let ok : Env → Prop := fun e => (tries e).stops = [] ∧ ∀ m ∈ e.exec, s.threadAwaits m = false
    (∀ fills t, Does i s (shapeMem 8 f own)
      (fun e => ok e ∧ s.fillsOf (s.ctxOfGroup e.group) (data e) (2 ^ f.size.toNat) = some fills ∧ s.fillStops (tries e).spots = [] ∧
        ((tries e).t.fillAll (s.ctxOfGroup e.group) e.core e.group.seed fills).1 = some t) fun _ => t) ∧
    (∀ e, Issues s (shapeMem 8 f own) e → ok e → s.fillsOf (s.ctxOfGroup e.group) (data e) (2 ^ f.size.toNat) = none →
      exec i s = .next (s.raiseAt e 1 ((tries e).spots.map fun x => (x.m, ⟨Code.crState, BitVec.ofNat 64 x.va⟩)) 0)) ∧
    ∀ (u : State) (ctx core wid va region n : Nat) (t : Target) (line : Line),
      (u.fillCounted ctx core (some wid) t va region n line).seen core t = line.extractLsb' (8 * t.off) 8 ∧
      (t.scratch = true → (u.fillCounted ctx core (some wid) t va region n line).countOf t = .live n))

/-- R17, R109, R200, R220, R221: the return of a load, or of a returning atomic, writes each destination of a warp with its value, a narrow one
extended by sign or by zero, unless its thread has exited (R109), and the warp's flag falls by one; the operation is then gone. -/
def Obligations.ReturnsWriteDestinations : Prop :=
  ∀ (s : State) (id wid k : Nat) (o : Op) (w : Warp) (x : Dest) (v : BitVec 128) (y : Thread),
    Tab.get? s.mem.ops id = some o → o.dests = [x] → x.wid = wid → o.flags = [(wid, k)] → s.destValue id x = some v →
    s.warp? wid = some w → w.defers id = false → s.thread? ⟨wid, x.lane⟩ = some y →
    let back : Instr → Prop := fun i => ∃ t, exec i s = .next t ∧ Tab.get? t.mem.ops id = none ∧
      (y.live = true → t.regs ⟨wid, x.lane⟩ x.reg (regsOfSize x.size) = x.extend v % 2 ^ (32 * regsOfSize x.size)) ∧
      (y.live = false → KeepsRegs s t [] []) ∧
      (∀ y, t.warp? wid = some y → y.flag k = w.flag k - 1) ∧
      KeepsRegs s t [⟨wid, x.lane⟩] ((List.range (regsOfSize x.size)).map (x.reg + ·)) ∧ KeepsPreds s t [] []
    (∀ c, o.kind = .load c → back (.loadReturn id)) ∧ (o.kind = .atomic → back (.atomicReturn id)) ∧
    (x.size = 1 → x.sext = true → (x.extend v : Int) = (BitVec.ofInt 32 (v.extractLsb' 0 8).toInt).toNat) ∧
    (x.size = 2 → x.sext = false → x.extend v = v.toNat % 65536)

/-- R216: the new value of a location, for every operation on 32 bits. R199, R205, R216, R221, R241: atomics whose accesses pass their checks:
those on scratchpad lines are performed at once, each global line's go out as one request, and a returning form is outstanding and counted. -/
def Obligations.Atomics : Prop :=
  (∀ (m b c : Word),
    let new : Nat → Word := fun op => (atomicNew op 4 (m.zeroExtend 64) (b.zeroExtend 64) (c.zeroExtend 64)).extractLsb' 0 32
    new 0 = m + b ∧ new 1 = m - b ∧ new 2 = (if b.slt m then b else m) ∧ new 3 = (if m.slt b then b else m) ∧
    new 4 = (if b.ult m then b else m) ∧ new 5 = (if m.ult b then b else m) ∧ new 6 = m &&& b ∧ new 7 = m ||| b ∧ new 8 = m ^^^ b ∧
    new 9 = b ∧ new 10 = (if m = c then b else m) ∧ new 11 = (if b.ule m then 0 else m + 1) ∧
    new 12 = BitVec.ofNat 32 (fAdd fp32 {} m.toNat b.toNat)) ∧
  (∀ (s : State) (f : XM),
    let issues : Bool → Bool → Instr → Prop := fun own returns i =>
      let sh : Shape := { shapeXM f ((if returns then [fieldRegs f.d (2 ^ f.size.toNat)] else []) ++ [if own then r1 f.a else r2 f.a, atomicRegs f]) with
        flag := if returns then some f.fs else none }
      ∀ e, Issues s sh e →
        let tries := e.attempt s (e.atomicSpot f own)
        tries.stops = [] → (s.sys.rdbase = 0 ∨ f.scope ≠ 3 ∧ f.scope ≠ 4) → (∀ m ∈ e.exec, s.threadAwaits m = false) →
        let near := (tries.spots.filter fun x => x.t.scratch).map (s.atomLane f)
        let far := (tries.spots.filter fun x => !x.t.scratch).map (s.atomLane f)
        ∃ t, exec i s = .next t ∧ KeepsRegs s t [] [] ∧ KeepsPreds s t [] [] ∧
          (∀ k, (t.scratchLine k).data = (applyAtomics (s.scratchLine k).data (near.filter fun l => l.pa / 128 == k)).1) ∧
          (∀ h ∈ far, ∃ r q, Tab.get? t.mem.homeReqs r = some q ∧ q.line = h.pa / 128 ∧ h ∈ q.lanes ∧ q.grant = .sent ∧ q.op.isSome = returns) ∧
          (returns = true → ∃ id op, Tab.get? t.mem.ops id = some op ∧ op.kind = .atomic ∧
            op.dests.map (fun x => (x.wid, x.lane, x.reg)) = e.exec.map (fun m => (m.wid, m.lane, f.d.toNat)) ∧
            op.flags = countsOf (warpsOf e.exec) (hdrFlag e.hdr f.fs)) ∧
          ∀ p x, t.mem.byte x = s.mem.byte x ∧ t.copy? p x = s.copy? p x
    issues false true (.atom f) ∧ issues true (!f.c.getLsbD 0) (.atoms f) ∧ issues false false (.atomp f))

/-! ### Operand buffers and the matrix unit -/

/-- R172 to R175, R126: reservation records made, released and swapped; loads of operand-buffer lines begun; and codebook weights written to
four registers. Log entry 14 reads when OBRES and OBREL hold, log entry 33 which threads a cause goes to. R174: an OBLD completes once every
source line has arrived and no earlier one has yet to write its lines: its lines hold what was read, and its flag falls. -/
def Obligations.OperandBuffer : Prop :=
  (∀ (s : State) (fe : XE) (f : X3) (fm : XM),
    let k := f.b.toNat % 8
    let kept : Env → (Warp → Warp) → State := fun e g => (warpsOf e.exec).foldl (fun t w => t.modWarp w g) s
    let record : Member → Nat → Option Reservation := fun m k => (s.warp? m.wid).bind (·.record? k)
    Does (.obres fe) s (shapeXE fe [r2 fe.a])
      (fun e => (e.forWarps s (s.obresSpot fe)).2.1 = [] ∧
        ∀ m ∈ e.exec, record m (fe.var8.toNat % 8) = none ∨ s.recordBusy m.wid (fe.var8.toNat % 8) = false)
      (fun e => (e.forWarps s (s.obresSpot fe)).2.2) ∧
    (∀ (t u : State) (wid v : Nat) (m : Member) (w : Warp), t.readObject m (t.pair m fe.a.toNat).toNat 32 32 = (.ok v, u) →
      u.warp? wid = some w → descriptorOk (BitVec.ofNat 256 v) = true → s.obFree wid (BitVec.ofNat 256 v) = true →
      u.obFree wid (BitVec.ofNat 256 v) = true →
      (((s.obresSpot fe wid m t).2.warp? wid).bind (·.record? (fe.var8.toNat % 8))) = some ⟨BitVec.ofNat 256 v, false⟩) ∧
    Does (.obrel f) s (shapeX3 8 f []) (fun e => ∀ m ∈ e.exec, s.recordBusy m.wid k = false)
      (fun e => kept e fun x => { x with records := Tab.del x.records k }) ∧
    Does (.obswap f) s (shapeX3 8 f []) (fun e => ∀ m ∈ e.exec, ∃ r, record m k = some r ∧ obHasShadow r.desc = true)
      (fun e => kept e fun x => { x with records := Tab.modify x.records k fun r => { r with plane := !r.plane } }) ∧
    Traps (.obswap f) s (shapeX3 8 f []) (fun e => ∀ m ∈ e.exec, record m k = none) Code.obState ∧
    Does (.obld fm) s { shapeXM fm [r2 fm.a, r1 fm.b, r1 fm.c] with flag := some fm.fs }
      (fun e => (e.forWarps s (e.obldTurn fm)).2.1 = [] ∧ ∀ x ∈ (e.forWarps s (e.obldTurn fm)).1, ∀ w, s.warp? x.1 = some w →
        ∀ p ∈ s.productsOf x.1, ∀ l ∈ p.reads w, l < x.2.first ∨ x.2.first + x.2.sources.length ≤ l)
      (fun e => (e.forWarps s (e.obldTurn fm)).2.2) ∧
    (∀ (e : Env) (t u : State) (wid : Nat) (m : Member) (x : Fetching), e.obldSpot fm wid m t = (.ok x, u) →
      ∃ v o, e.obldTurn fm wid m t = (.ok x, v) ∧ Tab.get? v.mem.ops u.fresh = some o ∧ KeepsRegs u v [] [] ∧
        o.kind = .obld e.q x.first (fm.d.toNat % 8) (fm.var.getLsbD 0) ∧ o.flags = countsOf [x.m.wid] (hdrFlag e.hdr fm.fs)) ∧
    (∀ g : Member → Reservation,
      WritesRow (.dqcb f) s (shapeX3 8 f [r4 f.d, r1 f.a, r1 f.b])
        (fun e => ∀ m ∈ e.exec, record m (f.c.toNat % 8) = some (g m) ∧ obFormat (g m).desc = 14 ∧
          s.obldWrites m.wid (lineRange (planeFirst (g m).desc (g m).plane + obCodebook (g m).desc) 8) = false)
        f.d.toNat 4 fun e m j => BitVec.ofNat 32 (dqcbWeights f
          (s.obEntry e.q (planeFirst (g m).desc (g m).plane) (g m).desc) (s.reg m f.a.toNat) (s.reg m f.b.toNat) / 2 ^ (32 * j)))) ∧
  (∀ (s : State) (id q first k wid fl : Nat) (c : Bool) (o : Op) (d : Dest) (lines : Nat → Line) (w : Warp),
    Tab.get? s.mem.ops id = some o → o.kind = .obld q first k c → o.dests = [d] → d.wid = wid → o.flags = [(wid, fl)] →
    s.warp? wid = some w → (∀ j, j < d.size → s.obldLine id o j = some (lines j)) →
    (∀ x ∈ s.obldsOf wid, x.1 < id → first + d.size ≤ x.2.1 ∨ x.2.1 + x.2.2.1 ≤ first) →
    ∃ t, exec (.obldComplete id) s = .next t ∧ Tab.get? t.mem.ops id = none ∧
      (∀ j, j < d.size → t.obLine q (first + j) = lines j) ∧
      (∀ r l, (r * 512 + l < q * 512 + first ∨ q * 512 + first + d.size ≤ r * 512 + l) → t.obLine r l = s.obLine r l) ∧
      (∀ y, t.warp? wid = some y → y.flag fl = w.flag fl - 1) ∧ KeepsRegs s t [] [] ∧ KeepsPreds s t [] [])

/-- R161, R162, R188: MODE enters or leaves matrix mode, or faults with MODESTATE; AWAIT waits for its warps' products. -/
def Obligations.MatrixMode : Prop :=
  ∀ (s : State) (f : X3),
    let changes : Instr → Nat → X3 → Prop := fun i n f =>
      Does i s { shapeX3 n f [] with place := .leading }
        (fun e => f.b.getLsbD 0 = true → ∀ m ∈ e.exec, s.modeStops m.wid = false ∨ ∃ w, s.warp? m.wid = some w ∧ w.mmode = true)
        (fun e => (warpsOf e.exec).foldl (fun t w => t.modWarp w fun x => { x with mmode := f.b.getLsbD 0 }) s) ∧
      Traps i s { shapeX3 n f [] with place := .leading }
        (fun e => f.b.getLsbD 0 = true ∧ ∀ m ∈ e.exec, s.modeStops m.wid = true ∧ ∀ w, s.warp? m.wid = some w → w.mmode = false) Code.modeState
    changes .modeM 4 (s.form32 1 0 0) ∧ changes .modeV 4 (s.form32 0 0 0) ∧ changes (.modeW f) 8 f ∧
    (∀ wid w, s.warp? wid = some w → w.alloc ≠ 256 ∨ w.liveMask ≠ BitVec.allOnes 32 → s.modeStops wid = true) ∧
    Does (.await f) s (shapeX3 8 f [])
      (fun e => ∀ w ∈ warpsOf e.exec, ∀ x, s.warp? w = some x → x.mmode = false ∨ s.productsOf w = []) fun _ => s

/-- R167, R168, R179 to R181: MMA and MMAG join their quarter's fabric queue, with their rows, and count one operation, and in an idle fabric
the first K-step begins; MMAT waits for the rendezvous of its team. Log entry 35 reads the order of the checks. -/
def Obligations.ProductsEnterTheFabric : Prop :=
  ∀ (s : State) (f : X3) (w : Warp),
    let n := if fromRegs f then rowRegs f.ty.toNat (kSteps f) else 0
    let rows : Env → Tab (List Word) := fun e =>
      if fromRegs f then e.exec.foldl (fun t m => Tab.put t m.lane ((List.range n).map fun i => s.reg m (f.a.toNat + i))) [] else []
    let enters : Instr → ProductKind → BitVec 9 → Shape → (Env → List (Nat × Nat × Nat)) → (Env → Option (BitVec 16)) → Prop :=
      fun i kind opc sh groups fault =>
        let p : Env → Product := fun e => e.product w f kind opc (kSteps f) (groups e) (rows e)
        let joins : Env → Product := fun e => { p e with issued := s.turn, inFabric := (s.quarter e.q).fabric.isEmpty }
        Does i s sh
          (fun e => e.inMatrix s = true ∧ s.warp? e.first.wid = some w ∧ fault e = none ∧ productHeld e.exec s w (p e) f.a.toNat n = false ∧
            (s.quarter e.q).fabric.length < 4)
          (fun e => (s.countUp [e.first.wid] (hdrFlag e.hdr f.fs)).modQuarter e.q fun x => { x with fabric := x.fabric ++ [joins e] }) ∧
        Traps i s sh (fun e => e.inMatrix s = false) Code.modeState
    let table : Env → List (Nat × Nat × Nat) := fun e =>
      (groupTable (s.regs e.first f.a.toNat 4) (f.b.toNat % 16)).filter fun x => decide (0 < x.2.1)
    let sum : Env → Nat := fun e => (table e).foldl (fun n x => n + x.2.1) 0
    let va : Env → Nat := fun e => (s.pair e.first f.a.toNat).toNat
    enters (.mma f) .mma 0x100 (shapeProduct f []) (fun _ => [(0, 32, f.b.toNat % 8)])
      (fun _ => productFault w f (kSteps f) [f.b.toNat % 8] false false) ∧
    enters (.mmag f) .mmag 0x101 (shapeProduct f [r4 f.a]) table
      (fun e => productFault w f (kSteps f) (if 32 < sum e then [] else (table e).map (·.2.2))
        (groupBits (s.regs e.first f.a.toNat 4) (f.b.toNat % 16)) (decide (32 < sum e))) ∧
    (∀ (v : Nat) (u : State) (x : Nat), BeginsWait (.mmat f) s { shapeX3 8 f [r2 f.a] with place := .leading, flag := some f.fs, named := [r1 f.d] }
      (fun e => e.inMatrix s = true ∧ s.warp? e.first.wid = some w ∧ e.members.head? = some e.first ∧ va e = x ∧
        s.readObject e.first x 64 64 = (.ok v, u) ∧ s.mmatFault w f (some (BitVec.ofNat 512 v)) = none ∧
        mmatA (BitVec.ofNat 512 v) % 128 = 0 ∧ mmatB (BitVec.ofNat 512 v) % 128 = 0 ∧
        (∀ k ∈ [recA f, f.b.toNat % 8], ∀ r, w.record? k = some r →
          s.obldWrites e.first.wid (lineRange (planeFirst r.desc (w.planeBits.getLsbD k)) (obLen r.desc)) = false) ∧
        productHeld e.members s w (e.product w f .mmat 0x102 (mmatSteps (BitVec.ofNat 512 v)) [(0, 32, f.b.toNat % 8)] []) 0 0 = false ∧
        (s.quarter e.q).fabric.length < 4)
      (fun _ => u) (fun _ => .mmat f (BitVec.ofNat 512 v) x) false)

/-- R168, R177, R181: K-steps: the oldest product of a quarter enters the fabric, and is written one K-step at a time; the last one retires it
and its flag falls. Only the accumulators of its warp change. One K-step of a quarter is in the fabric at a time (log entry 53). -/
def Obligations.KSteps : Prop :=
  ∀ (s : State) (q : Nat) (p : Product) (rest : List Product), (s.quarter q).fabric = p :: rest →
    (p.inFabric = false → p.kind ≠ .mmat → (∀ w, s.warp? p.wid = some w → w.trap = none) →
      ∃ t, exec (.kstepStart q) s = .next t ∧ (t.quarter q).fabric = { p with inFabric := true } :: rest ∧
        t.warps = s.warps ∧ t.mem = s.mem) ∧
    (∀ w, p.inFabric = true → s.warp? p.wid = some w →
      ∃ t, exec (.kstepWrite q) s = .next t ∧ t.mem = s.mem ∧
        (t.quarter q).fabric = (if p.nextK + 1 = p.steps then rest else { p with inFabric := false, nextK := p.nextK + 1 } :: rest) ∧
        (∀ f x, p.flag = some f → p.nextK + 1 = p.steps → t.warp? p.wid = some x → x.flag f = w.flag f - 1) ∧
        (∀ m r, m.wid ≠ p.wid ∨ r < 128 → t.reg m r = s.reg m r) ∧ KeepsPreds s t [] [] ∧
        ∀ m r, t.reg m r = (p.groups.foldl (fun u g => u.accGroup q w p g) s).reg m r) ∧
    ∀ (wid : Nat) (i : Nat) (f : X3) (d : BitVec 512) (va : Nat) (l : Launch) (w : Warp) (wids : List Nat),
      s.mmatWait wid = some (i, f, d, va) → s.warp? wid = some w → s.launchOfWarp w = some l →
      (s.teamBlocks wid).flatMap (fun b => (List.range 4).map fun c => s.mmatAt b c va) = wids.map some → wids.length = 4 * l.teamSize →
      (∀ x ∈ wids, ∃ y, s.warp? x = some y ∧ (s.quarter y.quarterOf).fabric.length < 4) →
      exec (.mmatRendezvous wid) s = .next ((wids.zip (List.range wids.length)).foldl (fun t x => t.startMmat s.fresh x.2 x.1)
        { s with fresh := s.fresh + 1 })

/-- R182 to R187: the epilogue: accumulators cleared, scaled, converted and transposed, and boxes of them patched. Log entry 21 reads when a
patch is linked. -/
def Obligations.MatrixEpilogue : Prop :=
  ∀ (s : State) (f : X3),
    let n0 := f.d.toNat - 128
    let a0 := f.a.toNat - 128
    let n := f.c.toNat
    let sh : Nat → Nat → Nat → Shape := fun c r k =>
      { shapeX3 8 f [] with place := .leading, cycles := c, named := (lineRange r k).map fun x => (x, 1) }
    let free : Env → List Member → Nat → Nat → Nat → Nat → Prop := fun e l c n r k =>
      e.inMatrix s = true ∧ s.columnsHeld l c n = false ∧ s.regsHeld l r k = false
    let col := f.scope.getLsbD 0
    let k := if col then (n + 31) / 32 else 1
    let w := typeBits f.ty.toNat
    WritesRow (.aclr f) s (sh 1 0 0) (fun e => n0 + n ≤ 128 ∧ free e e.exec n0 n 0 0) (128 + n0) n (fun _ _ _ => 0) ∧
    WritesRow (.ascale f) s (sh 2 f.a.toNat k)
      (fun e => n0 + n ≤ 128 ∧ f.a.toNat + k ≤ 128 ∧ free e (if col then e.members else e.exec) n0 n f.a.toNat k) (128 + n0) n
      (fun _ m j => BitVec.ofNat 32 (fMul fp32 {} (s.reg m (128 + n0 + j)).toNat
        (if col then s.reg ⟨m.wid, j % 32⟩ (f.a.toNat + j / 32) else s.reg m f.a.toNat).toNat)) ∧
    WritesRow (.acvt f) s (sh 2 f.d.toNat (n * w / 32))
      (fun e => n % (32 / w) = 0 ∧ a0 + n ≤ 128 ∧ f.d.toNat + n * w / 32 ≤ 128 ∧ free e e.exec a0 n f.d.toNat (n * w / 32))
      f.d.toNat (n * w / 32)
      (fun _ m j => BitVec.ofNat 32 (packNat w ((List.range n).map fun i => acvtElement f (s.reg m (128 + a0 + i))) / 2 ^ (32 * j))) ∧
    WritesRow (.atrn f) s (sh 4 f.d.toNat 32) (fun e => free e e.members a0 32 f.d.toNat 32) f.d.toNat 32
      (fun _ m j => s.reg ⟨m.wid, j⟩ (128 + a0 + m.lane)) ∧
    Traps (.aclr f) s (sh 1 0 0) (fun e => e.inMatrix s = false) Code.modeState ∧
    Traps (.aclr f) s (sh 1 0 0) (fun e => e.inMatrix s = true ∧ 128 < n0 + n) Code.mmBound ∧
    ∀ target, Does (.apatch f) s
      { shapeX3 8 f [] with place := .leading, cycles := if f.scope.getLsbD 2 then 8 else 2,
                            named := r1 f.a :: r2 f.b :: if f.scope.getLsbD 2 then [r2 f.c] else [] }
      (fun e =>
        let b := (s.reg e.first (f.b.toNat + 1)).toNat
        e.inMatrix s = true ∧ s.pendingAny e.first [r2 f.b] = false ∧ (f.scope.getLsbD 2 = true → s.pendingAny e.first [r2 f.c] = false) ∧
        s.regsHeld e.exec f.a.toNat 1 = false ∧ b % 256 ≠ 0 ∧ n0 + b % 256 ≤ 128 ∧ b < 2 ^ 13 ∧ (f.scope.getLsbD 2 = false → b < 256) ∧
        s.patchTarget f e.first (b / 256 % 32) = .ok target ∧
        s.columnsHeld (e.exec.map fun m => ⟨target, m.lane⟩) n0 (b % 256) = false)
      fun e => s.patch f e.exec (s.reg e.first f.b.toNat) target n0 ((s.reg e.first (f.b.toNat + 1)).toNat % 256)

/-! ### Regions, fences, rings and barriers -/

/-- R210, R222 to R226: regions declared and released (CRREL waits for the fills of its region), ranges of lines written back or discarded,
lease hints, and presence bits. INVL and WBL act as they issue (log entry 17). -/
def Obligations.RegionsAndLines : Prop :=
  ∀ (s : State) (f : XM),
    let ctx : Env → Nat := fun e => s.ctxOfGroup e.group
    let base : Env → Nat := fun e => (s.pair e.first f.a.toNat).toNat
    let len : Env → Nat := fun e => (s.reg e.first f.b.toNat).toNat
    let region : Env → Region := fun e =>
      let blk := s.blockOf e.first.wid
      let c := (s.reg e.first f.c.toNat).toNat
      ⟨BitVec.ofNat 56 (s.aliasOf blk (base e)), len e, c % 256, c.testBit 8, ((s.block? blk).map (·.launch)).getD 0, blk, e.core⟩
    let range : Shape := shapeXM f [r2 f.a, r1 f.b]
    (∀ x, Does (.crdecl f) s (shapeXM f [r2 f.a, r1 f.b, r1 f.c])
      (fun e => s.ctx? (ctx e) = some x ∧ base e % 128 = 0 ∧ len e % 128 = 0 ∧ 128 ≤ len e ∧ len e ≤ 2 ^ 30 ∧
        (s.reg e.first f.c.toNat).toNat % 256 ≠ 0 ∧ (s.reg e.first f.c.toNat).toNat < 512 ∧
        s.regionFits (s.blockOf e.first.wid) (base e) (len e) = true ∧ Tab.get? x.regions (f.d.toNat % 64) = none ∧
        ∀ y ∈ x.regions, s.regionsMeet (region e) y.2 = false)
      fun e => s.modCtx (ctx e) fun c => { c with regions := Tab.put c.regions (f.d.toNat % 64) (region e) }) ∧
    Traps (.crdecl f) s (shapeXM f [r2 f.a, r1 f.b, r1 f.c])
      (fun e => (s.ctx? (ctx e)).isSome ∧ (base e % 128 ≠ 0 ∨ len e < 128 ∨ 2 ^ 30 < len e)) Code.crState ∧
    (∀ r, BeginsWait (.crrel f) s (shapeXM f [])
      (fun e => ((s.ctx? (ctx e)).bind fun c => Tab.get? c.regions (f.d.toNat % 64)) = some r) (fun _ => s)
      (fun e => .crrel f ((s.allTasks.filter fun x => x.2.ctx == ctx e && s.fillsRegion x.2 (f.d.toNat % 64)).map fun x => (x.1, x.2.seq.toNat)))
      false) ∧
    (∀ fills r,
      let under : Member → Nat × State := fun m => s.releaseRegion (s.ctxOf m.wid) (f.d.toNat % 64) (s.coreOf m.wid) (some m.wid)
      EndsWait s (.crrel f fills) f.guard f.sense (fun m _ =>
          (∀ x ∈ fills, ∀ t ∈ (s.engineQueue x.1).tasks, t.seq.toNat ≠ x.2) ∧
          ((s.ctx? (s.ctxOf m.wid)).bind fun c => Tab.get? c.regions (f.d.toNat % 64)) = some r ∧ (r.ufault = false ∨ (under m).1 = 0))
        (fun m _ => (under m).2) ∧
      ∀ m, ((s.ctx? (s.ctxOf m.wid)).bind fun c => Tab.get? c.regions (f.d.toNat % 64)) = some r → (s.sys.rdbase = 0) →
        (((under m).2.ctx? (s.ctxOf m.wid)).bind fun c => Tab.get? c.regions (f.d.toNat % 64)) = none ∧
        ∀ x ∈ (under m).2.mem.counted, x.2.ctx ≠ s.ctxOf m.wid ∨ x.2.region ≠ f.d.toNat % 64) ∧
    (∀ b n t u, Does (.wbl f) s range
      (fun e => s.rangeOperand e.first f = some (b, n) ∧
        s.cleanRange e.core (ctx e) (s.reach (ctx e) e.core f.scope.toNat) (s.rangeLines e.core (ctx e) b n) = (some t, u)) fun _ => t) ∧
    (∀ b n t u, Does (.invl f) s range
      (fun e => s.rangeOperand e.first f = some (b, n) ∧
        s.cleanRange e.core (ctx e) (s.reach (ctx e) e.core f.scope.toNat) (s.rangeLines e.core (ctx e) b n) = (some t, u))
      fun e => t.discardRange e.core (s.reach (ctx e) e.core f.scope.toNat) (s.rangeLines e.core (ctx e) b n)) ∧
    (∀ b n, Does (.lhint f) s range (fun e => s.rangeOperand e.first f = some (b, n)) fun e =>
      s.modCtx (ctx e) fun c => { c with hints := (if f.var.getLsbD 2 then c.hints.flatMap fun h => h.minus b n
        else ⟨b, n, f.var.toNat % 4⟩ :: c.hints).take 16 }) ∧
    Traps (.wbl f) s range (fun e => s.rangeOperand e.first f = none) Code.crState ∧
    Traps (.invl f) s range (fun e => s.rangeOperand e.first f = none) Code.crState ∧
    Traps (.lhint f) s range (fun e => s.rangeOperand e.first f = none) Code.crState ∧
    (∀ b : Block,
      let off : Env → Nat := fun e => (s.reg e.first f.a.toNat).toNat
      let ok : Env → Prop := fun e => off e % 128 = 0 ∧ s.block? (s.blockOf e.first.wid) = some b ∧ 1 ≤ len e ∧ len e ≤ 32 ∧
        off e + len e * 128 ≤ b.lines * 128
      let line : Env → Nat → Nat := fun e j => b.core * 4096 + b.firstLine + off e / 128 + j
      (f.var.toNat % 4 = 0 → ∀ e, Issues s (shapeXM f [r1 f.d, r1 f.a, r1 f.b]) e → ok e → ∃ t, exec (.pres f) s = .next t ∧
        (∀ m ∈ e.exec, ∀ j, j < 32 → (t.reg m f.d.toNat).getLsbD j = (decide (j < len e) && (s.scratchLine (line e j)).present)) ∧
        KeepsRegs s t e.exec [f.d.toNat] ∧ KeepsPreds s t [] [] ∧ Kept s t) ∧
      (f.var.toNat % 4 ≠ 0 → ∀ e, Issues s (shapeXM f [r1 f.a, r1 f.b]) e → ok e → ∃ t, exec (.pres f) s = .next t ∧
        (∀ j, j < len e → (t.scratchLine (line e j)).present = decide (f.var.toNat % 4 = 1)) ∧
        (∀ l, (∀ j, j < len e → l ≠ line e j) → t.scratchLine l = s.scratchLine l) ∧
        (∀ p a, t.seen p a = s.seen p a) ∧ KeepsRegs s t [] [] ∧ KeepsPreds s t [] []))

/-- R251, R252, R280 to R286: FENCE, RAWAIT, BARV and BWAIT give up the slot and wait, and complete when their releases have, a slot is
published, or the phase is over; RINIT, RREL, BINIT, BEXP and BTEST complete at once. An operand that names no well-formed object faults
with OBJSTATE. Log entry 20 reads which code a misaligned object gives. -/
def Obligations.FencesRingsAndBarriers : Prop :=
  ∀ (s : State) (fm : XM) (f : XE) (core off : Nat),
    let va : Env → Nat := fun e => (s.pair e.first f.a.toNat).toNat
    let sh : List (Nat × Nat) → Shape := shapeXE f
    let barv : List (Nat × Nat) := [r1 f.d, r2 f.a] ++ if f.var8.getLsbD 0 then [r1 f.b] else []
    let barrier : Env → Prop := fun e => s.barrierOf e.first (va e) = some (core, off)
    BeginsWait (.fence fm) s (shapeXM fm (if fenceStatus fm then [r1 fm.d] else [])) (fun _ => True) (fun _ => s) (fun _ => .fence fm []) false ∧
    (∀ (id : Nat) (x : Wait) (lines : Tab Nat) (m : Member) (rest : List Member) (u : State), Tab.get? s.waits id = some x →
      x.kind = .fence fm lines → s.waitStands id x = true → s.waitExec x fm.guard fm.sense = m :: rest → (m :: rest).Nodup →
      (if fenceReleases fm then (s.releaseAll fm.scope.toNat (warpsOf (m :: rest))).1 = some u else u = s) → u.sys.rdbase = 0 →
      ∃ t, exec (.waitEnd id) s = .next t ∧ Tab.get? t.waits id = none ∧ t.mem = u.mem ∧ t.ctxs = u.ctxs ∧ t.sys = u.sys ∧
        (u.host.posted = [] → fenceStatus fm = true → ∀ k ∈ m :: rest, s.thread? k ≠ none → t.reg k fm.d.toNat = 0) ∧
        KeepsRegs s t (if fenceStatus fm then m :: rest else []) [fm.d.toNat] ∧ KeepsPreds s t [] [] ∧
        ∀ w ∈ warpsOf (m :: rest), ∀ y z, u.warp? w = some y → t.warp? w = some z →
          (fenceAcquires fm = false → z.pts = y.pts ∧ z.ots = y.ots) ∧
          (fenceAcquires fm = true → fenceSc fm = false → z.pts = maxs y.pts y.ots ∧ z.ots = z.pts)) ∧
    (∀ r : Ring,
      BeginsWait (.rawait f) s (sh [r1 f.d, r2 f.a]) (fun e => s.ringOf e.first (va e) = some (core, off, r)) (fun _ => s) (fun _ => .rawait f) false ∧
      EndsWait s (.rawait f) f.guard f.sense
        (fun m _ => s.ringOf m (s.pair m f.a.toNat).toNat = some (core, off, r) ∧ r.ap ≠ r.wp)
        (fun m rest => (warpsOf (m :: rest)).foldl
          (fun t w => match s.objTime? core off (16 + r.ap % r.slots) with | some y => t.acquireAt w y | none => t.acquire w)
          (((m :: rest).foldl (fun t k => t.setReg k f.d.toNat (BitVec.ofNat 32 (r.slotOffset r.ap))) s).putRing core off
            { r with ap := r.ap + 1 })) ∧
      Does (.rrel f) s (sh [r2 f.a])
        (fun e => s.ringOf e.first (va e) = some (core, off, r) ∧ r.rp ≠ r.ap ∧ ∀ w ∈ warpsOf e.exec, s.quiet w = true)
        (fun _ => s.putRing core off { r with rp := r.rp + 1 }) ∧
      Traps (.rrel f) s (sh [r2 f.a]) (fun e => s.ringOf e.first (va e) = some (core, off, r) ∧ r.rp = r.ap) Code.objState) ∧
    (∀ b : Block,
      let base : Env → Nat := fun e => (s.reg e.first f.b.toNat).toNat
      let c : Env → Nat := fun e => (s.reg e.first f.c.toNat).toNat
      let slots : Env → Nat := fun e => c e % 256 + 1
      let lines : Env → Nat := fun e => c e / 65536 % 512 + 1
      Does (.rinit f) s (sh [r2 f.a, r1 f.b, r1 f.c])
        (fun e => s.ownObject e.first (va e) 32 = some (core, off) ∧ s.block? (s.blockOf e.first.wid) = some b ∧ base e % 128 = 0 ∧
          c e / 256 % 256 = 0 ∧ c e < 2 ^ 25 ∧ base e + slots e * lines e * 128 ≤ b.lines * 128 ∧
          (b.offset off + 32 ≤ base e ∨ base e + slots e * lines e * 128 ≤ b.offset off) ∧ s.ringInUse core off = false)
        fun e => s.putRing core off ⟨lines e, slots e, base e, 0, 0, 0, 0, 0⟩) ∧
    (∀ l : Launch,
      let n : Env → Nat := fun e => (s.reg e.first f.b.toNat).toNat
      Does (.binit f) s (sh [r2 f.a, r1 f.b])
        (fun e => s.ownObject e.first (va e) 16 = some (core, off) ∧ (s.warp? e.first.wid).bind s.launchOfWarp = some l ∧ 1 ≤ n e ∧ n e ≤ 65535 ∧
          f.var8.toNat % 8 < 5 ∧ l.levelOf (f.var8.toNat % 8 + 2) ≠ none ∧ s.barrierWaits core off = [] ∧ s.barrierNamed core off = false)
        fun e => (s.putBarrier core off ⟨0, false, f.var8.toNat % 8, 0, 0, n e, n e⟩).clearObjTimes core off) ∧
    BeginsWait (.barv f) s (sh barv) barrier (fun _ => s) (fun _ => .barv f) false ∧
    (∀ (t : State) (n : Nat),
      EndsWait s (.barv f) f.guard f.sense (fun m rest =>
          s.barrierOf m (s.pair m f.a.toNat).toNat = some (core, off) ∧
          (s.releaseAll (barrierScope (s.barrier core off).level) (warpsOf (m :: rest))).1 = some t ∧ (t.barrier core off).fwd = false ∧
          n = (if f.var8.getLsbD 0 then (t.reg m f.b.toNat).toNat else (m :: rest).length) ∧ 1 ≤ n ∧ n ≤ (t.barrier core off).arr)
        fun m rest =>
          let u := (m :: rest).foldl (fun u k => u.setReg k f.d.toNat (BitVec.ofNat 32 (t.barrier core off).gen)) t
          u.arrive core off n ((warpsOf (m :: rest)).foldl (fun y w => maxs y (u.pts w)) (u.pts m.wid))) ∧
    BeginsWait (.bwait f) s (sh [r2 f.a, r1 f.b]) barrier (fun _ => s) (fun _ => .bwait f) false ∧
    EndsWait s (.bwait f) f.guard f.sense (fun m rest => s.barrierOf m (s.pair m f.a.toNat).toNat = some (core, off) ∧
        (∀ k ∈ m :: rest, (s.barrier core off).gen ≠ (s.reg k f.b.toNat).toNat % 1024) ∧ ∀ w, s.patchComes core off w = false)
      (fun m rest => (m :: rest).foldl (fun t k => t.observePhase core off f k) s) ∧
    Does (.bexp f) s (sh [r2 f.a, r1 f.b]) (fun e => barrier e ∧ (s.reg e.first f.b.toNat).toNat < 2 ^ 31)
      (fun e => s.addBytes core off (s.reg e.first f.b.toNat).toNat none) ∧
    Does (.btest f) s (sh [r2 f.a, r1 f.b]) barrier (fun e =>
      (e.exec.filter fun m => s.phaseOver core off f m).foldl (fun u m => u.observePhase core off f m)
        (e.writePred s (f.d.toNat % 16) fun m => s.phaseOver core off f m)) ∧
    (∀ i g, (i, g) ∈ [(Instr.barv f, barv), (.bwait f, [r2 f.a, r1 f.b]), (.bexp f, [r2 f.a, r1 f.b]), (.btest f, [r2 f.a, r1 f.b])] →
      Traps i s (sh g) (fun e => s.barrierOf e.first (va e) = none) Code.objState)

/-- R283, R284: an arrival lowers ARR; when ARR and BYTES are both zero the phase of a block-level barrier completes: its generation rises, ARR
is EXPCT again, and the phase carries the latest time of its arrivals. R285: a keystone counts each block of a level once, and releases them
all when the last has arrived; a release completes the phase of one block's object. -/
def Obligations.BarriersAndKeystones : Prop :=
  (∀ (s : State) (core off n : Nat) (t : LTime) (b : Barrier), off % 16 = 0 → s.barrier core off = b → s.barrierBad core off = false →
    b.level = 0 → b.fwd = false → b.arr < 65536 → b.expct < 65536 → b.gen < 1024 → n ≤ b.arr → 0 < n →
    (n < b.arr ∨ b.bytes ≠ 0 → (s.arrive core off n t).barrier core off = { b with arr := b.arr - n }) ∧
    (n = b.arr → b.bytes = 0 → (s.arrive core off n t).barrier core off = { b with gen := (b.gen + 1) % 1024, arr := b.expct } ∧
      (s.arrive core off n t).objTime? core off (1024 + b.gen) = some (match s.objTime? core off 0 with | some u => maxs u t | none => t)) ∧
    ∀ m r, (s.arrive core off n t).reg m r = s.reg m r) ∧
  (∀ (s : State) (k : Nat),
    (∀ (a : Arrival), Tab.get? s.arrivals k = some a → s.keystoneOf a = none → 1 < s.participants a.launch a.level →
      ∃ t, exec (.keystoneArrival k) s = .next t ∧ Tab.get? t.arrivals k = none ∧
        Tab.get? t.keystones s.fresh = some ⟨a.launch, a.level, a.inst, a.off, [a.block], a.time, []⟩ ∧ t.mem = s.mem ∧ t.warps = s.warps) ∧
    (∀ (a : Arrival) (i : Nat) (x : Keystone), Tab.get? s.arrivals k = some a → s.keystoneOf a = some (i, x) → x.releasing = [] →
      a.block ∉ x.arrived → s.participants a.launch a.level ≤ x.arrived.length + 1 →
      ∃ t, exec (.keystoneArrival k) s = .next t ∧ Tab.get? t.arrivals k = none ∧
        Tab.get? t.keystones i = some { x with arrived := [], releasing := x.arrived ++ [a.block], time := maxs x.time a.time }) ∧
    (∀ (x : Keystone) (linear : Nat) (rest : List Nat) (i : Nat) (b : Block), Tab.get? s.keystones k = some x →
      x.releasing = linear :: rest → (s.blocks.find? fun y => y.2.launch == x.launch && y.2.linear == linear && !y.2.departed) = some (i, b) →
      b.saved = false → (s.barrier b.core (b.firstLine * 128 + x.off)).fwd = true →
      let left : State := { s with keystones := if rest.isEmpty then Tab.del s.keystones k else Tab.put s.keystones k { x with releasing := rest } }
      exec (.keystoneRelease k) s = .next (left.completePhase b.core (b.firstLine * 128 + x.off) x.time)))

/-! ### Engine commands -/

/-- R266, R267, R281: a command joins its queue with the next sequence number; the flag of each executing warp counts it, its destination lines
in the scratchpad lose their presence bits, and the token pair names engine, context and sequence number. -/
def Obligations.QueuesTakeCommands : Prop :=
  ∀ (s : State) (sh : Shape) (e : Env) (o : Order), s.env? sh = some e →
    let ctx := s.ctxOfGroup e.group
    let k := queueKey o.eng ctx
    let q := s.engineQueue k
    let t := e.queue s o
    (∃ task : Task, (t.engineQueue k).tasks = q.tasks ++ [task] ∧ task.seq = BitVec.ofNat 32 q.nextSeq ∧ task.cmd = o.cmd ∧ task.ctx = ctx ∧
      task.core = e.core ∧ task.flags = countsOf (warpsOf e.exec) o.flag ∧ task.bars = o.bars ∧ task.cnt = o.cnt ∧ task.fresh = o.fresh ∧
      task.started = false ∧ task.status = 0 ∧ ∀ l, l ∈ s.destLines task ∨ l ∈ s.scatPad task → scratchBase ≤ l * 128 →
        (t.scratchLine (slotByte e.core (l * 128) / 128)).present = false) ∧
    (t.engineQueue k).nextSeq = (q.nextSeq + 1) % 2 ^ 32 ∧
    (∀ j, j ≠ k → t.engineQueue j = s.engineQueue j) ∧
    (∀ r, o.token = some r → ∀ m ∈ e.exec, t.pair m r = BitVec.ofNat 64 (o.eng * 2 ^ 44 + ctx * 2 ^ 32 + q.nextSeq % 2 ^ 32)) ∧
    (o.token = none → KeepsRegs s t [] []) ∧ KeepsPreds s t [] [] ∧
    (∀ f, o.flag = some f → ∀ w ∈ warpsOf e.exec, ∀ x y, s.warp? w = some x → t.warp? w = some y → y.flag f = x.flag f + 1)

/-- R272 to R277, R227, R279, R303 to R305: the engine commands are queued when their operands are good and their queue has room. A descriptor
that breaks its rules faults with ENGSTATE, an object that is not well formed with OBJSTATE; TKWAIT waits for tokens. Log entry 43 reads the
register C of PREFB. -/
def Obligations.EngineCommands : Prop :=
  ∀ (s : State) (f : XE) (fm : XM),
    let room : State → Env → Nat → Prop := fun u e eng => (u.engineQueue (queueKey eng (u.ctxOfGroup e.group))).tasks.length < 64
    let va : Env → Nat := fun e => (s.pair e.first f.a.toNat).toNat
    let order : Env → Nat → Command → List (Nat × Nat) → Order := fun e eng cmd bars =>
      ⟨eng, cmd, e.flag f.fs, commandToken f, bars, none, none, commandFresh f, f.scope.toNat⟩
    -- CPT, GATH and SCAT: a descriptor, and for the first two a ring
    let tile : Instr → Shape → Nat → (Env → Nat) → (Nat → Bool) → (Nat → Nat) → (Nat → Nat) → (Nat → Nat) → (Nat → List (Nat × Nat)) →
        (Nat → Nat → Bool) → (Nat → Nat → Command) → Prop :=
      fun i sh n eng ok span dst count sides dense cmd => ∀ (v : Nat) (u : State) (x : Option (Nat × Nat × Ring)) (bars : List (Nat × Nat)),
        let base := match x with | some (_, _, r) => aliasBase + r.slotOffset r.cp | none => dst v
        Does i s sh
          (fun e => s.readObject e.first (va e) n n = (.ok v, u) ∧ ok v = true ∧ u.commandSlot f e.first = some x ∧
            u.commandBars f e.first = some bars ∧
            (∀ r, x = some r → span v ≤ r.2.2.lines * 128 ∧ (u.ring r.1 r.2.1).full = false) ∧
            (∀ p ∈ (base, base + span v) :: sides v, u.sideStop (u.blockOf e.first.wid) p.1 p.2 = none) ∧
            (commandCounts f = true → dense v base = true ∧
              u.regionsCover (u.ctxOfGroup e.group) (u.blockOf e.first.wid) base (base + span v) = true) ∧ room u e (eng e))
          (fun e => e.queue u { order e (eng e) (cmd v base) bars with
            ring := x.map fun r => (r.1, r.2.1), cnt := if commandCounts f then some (count v) else none }) ∧
        Traps i s sh (fun e => s.readObject e.first (va e) n n = (.ok v, u) ∧ ok v = false) Code.engState ∧
        Traps i s sh (fun e => s.readObject e.first (va e) n n = (.ok v, u) ∧ ok v = true ∧ u.commandBars f e.first = none) Code.objState
    let bits : Nat → BitVec 512 := BitVec.ofNat 512
    let sides : Nat → List (Nat × Nat) := fun v =>
      [(gathT (bits v), gathT (bits v) + gathRows (bits v) * gathTstr (bits v)), (gathI (bits v), gathI (bits v) + 4 * gathN (bits v))]
    tile (.cpt f) (shapeCommand f (r2 f.a :: ringRegs f)) 128 (fun e => copyEngine e.core)
      (fun v => cptOk (BitVec.ofNat 1024 v) (commandRing f) (commandCounts f)) (fun v => cptSpan (BitVec.ofNat 1024 v))
      (fun v => cptDst (BitVec.ofNat 1024 v)) (fun v => cptCount (BitVec.ofNat 1024 v)) (fun v => [cptSource (BitVec.ofNat 1024 v)])
      (fun v => cptDense (BitVec.ofNat 1024 v)) (fun v => .cpt (BitVec.ofNat 1024 v)) ∧
    tile (.gath f) (shapeCommand f (r2 f.a :: ringRegs f)) 64 (fun e => gatherEngine e.core)
      (fun v => gathOk (bits v) false (commandRing f) (commandCounts f)) (fun v => gathSpan (bits v)) (fun v => gathX (bits v))
      (fun v => gathCount (bits v)) sides (fun v => gathDense (bits v)) (fun v => .gath (bits v)) ∧
    tile (.scat f) (shapeCommand f [r2 f.a]) 64 (fun e => gatherEngine e.core) (fun v => gathOk (bits v) true false false)
      (fun v => gathSpan (bits v)) (fun v => gathX (bits v)) (fun _ => 0) sides (fun _ _ => true) (fun v _ => .scat (bits v)) ∧
    -- CPA: one element for each executing thread
    (∀ bars,
      let src : Member → Nat := fun m => (s.pair m f.a.toNat).toNat
      let dst : Member → Nat := fun m => (s.pair m f.b.toNat).toNat
      let count : Env → Nat := fun e => (s.reg e.first f.d.toNat).toNat
      let sh := shapeCommand f ([r2 f.a, r2 f.b] ++ if commandCounts f then [r1 f.d] else [])
      Does (.cpa f) s sh
        (fun e => s.commandBars f e.first = some bars ∧ room s e (copyEngine e.core) ∧
          (∀ m ∈ e.exec, s.elementStop m (src m) (elementSize f) = [] ∧ s.elementStop m (dst m) (elementSize f) = []) ∧
          (commandCounts f = true → count e < 256 ∧
            s.cpaCovers (s.ctxOfGroup e.group) (s.blockOf e.first.wid) (e.exec.map dst) (elementSize f) = true))
        (fun e => e.queue s { order e (copyEngine e.core) (.cpa (e.exec.map fun m => (s.pair m f.a.toNat, s.pair m f.b.toNat)) (elementSize f)) bars with
          cnt := if commandCounts f then some (count e) else none }) ∧
      Traps (.cpa f) s sh (fun e => s.commandBars f e.first = none) Code.objState) ∧
    -- CPM: lines to the scratchpads of several cores
    (∀ v u bars,
      let d := BitVec.ofNat 256 v
      let sh := shapeCommand f [r2 f.a]
      let lines := (cpmCores d).flatMap fun c => (List.range (cpmLines d)).map (cpmLine d c)
      Does (.cpm f) s sh
        (fun e => s.readObject e.first (va e) 32 32 = (.ok v, u) ∧ cpmOk d = true ∧
          (if f.var8.toNat % 4 = 2 then u.cpmBars (s.ctxOfGroup e.group) e.core (u.reg e.first f.c.toNat).toNat (cpmCores d) else some []) = some bars ∧
          cpmOff d + cpmLines d * 128 ≤ 2 ^ 19 ∧ (∀ l ∈ lines, (u.scratchAt (s.blockOf e.first.wid) l).isSome) ∧
          (commandCounts f = true → ∀ l ∈ lines, u.cpmCovered (s.ctxOfGroup e.group) e.core l = true) ∧ room u e (copyEngine e.core))
        (fun e => e.queue u { order e (copyEngine e.core) (.cpm d) bars with cnt := if commandCounts f then some (cpmCount d) else none }) ∧
      Traps (.cpm f) s sh (fun e => s.readObject e.first (va e) 32 32 = (.ok v, u) ∧ cpmOk d = false) Code.engState) ∧
    -- COLL: this die is a participant
    (∀ v u bars,
      let d := bits v
      let sh := shapeCommand f [r2 f.a]
      let ps : Env → List (Nat × Nat) := fun e => u.participantsOf (s.ctxOfGroup e.group) f.scope.toNat d
      Does (.coll f) s sh
        (fun e => s.readObject e.first (va e) 64 64 = (.ok v, u) ∧ collOk d f.scope.toNat = true ∧ u.commandBars f e.first = some bars ∧
          (u.sys.causkid.toNat % 512, dieOf e.core) ∈ ps e ∧ collSbuf d + collSent d (ps e).length * collChunkBytes d ≤ scratchBase ∧
          collRbuf d + collReceived d (ps e).length * collChunkBytes d ≤ scratchBase ∧ room u e (collectiveEngine e.core))
        (fun e => e.queue u { order e (collectiveEngine e.core) (.coll d f.scope.toNat) bars with fresh := false }) ∧
      Traps (.coll f) s sh (fun e => s.readObject e.first (va e) 64 64 = (.ok v, u) ∧ collOk d f.scope.toNat = false) Code.engState) ∧
    -- PREFB: a range of lines fetched
    (∀ bars base len,
      let cnt := fm.var.getLsbD 0
      let bar := fm.var.getLsbD 1
      let c : Env → Nat := fun e => if cnt || fm.c != 0 then (s.reg e.first fm.c.toNat).toNat else 0
      let sh := shapeXM fm [if bar then r1 fm.d else r2 fm.d, r2 fm.a, r1 fm.b, r1 fm.c]
      Does (.prefb fm) s sh
        (fun e => (if bar then s.ownBars e.first (s.reg e.first fm.d.toNat).toNat else some []) = some bars ∧
          s.rangeOperand e.first fm = some (base, len) ∧ base + len ≤ scratchBase ∧
          e.watchStop s e.first base len true false = none ∧ c e < 256 ∧ (cnt = false → c e = 0) ∧
          (cnt = true → s.regionsCover (s.ctxOfGroup e.group) (s.blockOf e.first.wid) base (base + len) = true) ∧ room s e (copyEngine e.core))
        (fun e => e.queue s ⟨copyEngine e.core, .prefb (BitVec.ofNat 64 base) len, none, if bar then none else some fm.d.toNat, bars, none,
          if cnt then some (c e) else none, true, 3⟩) ∧
      Traps (.prefb fm) s sh (fun e => (if bar then s.ownBars e.first (s.reg e.first fm.d.toNat).toNat else some []) = some bars ∧
        s.rangeOperand e.first fm = none) Code.crState) ∧
    -- TKWAIT: tokens of commands that their queues have taken
    BeginsWait (.tkwait f) s (shapeXE f ((if f.var8.getLsbD 0 then [r1 f.d] else []) ++ [r2 f.a]))
      (fun e => ∀ m ∈ e.exec, s.tokenOk (s.ctxOfGroup e.group) (s.pair m f.a.toNat) = true) (fun _ => s) (fun _ => .tkwait f) false ∧
    Traps (.tkwait f) s (shapeXE f ((if f.var8.getLsbD 0 then [r1 f.d] else []) ++ [r2 f.a]))
      (fun e => ∀ m ∈ e.exec, s.tokenOk (s.ctxOfGroup e.group) (s.pair m f.a.toNat) = false) Code.engState

/-! ### Launches, events, priorities -/

/-- R302 to R307: LAUNCH waits while its records are taken; JOIN completes when its launch has, and otherwise waits; EVSIG and EVWAIT wait;
SGSET needs privilege and a mask of enabled cores; PRIO replaces the class of the launch, and raises it only with privilege. Log entry 22
reads what SGSET waits for, log entry 61 when a queue is full. -/
def Obligations.LaunchesAndEvents : Prop :=
  ∀ (s : State) (f : XE) (g : XS),
    let ending : List (Nat × Nat) → Shape := fun l => { shapeXE f l with place := .ending }
    let b : Env → Nat := fun e => (s.reg e.first f.b.toNat).toNat
    BeginsWait (.launch f) s (ending [r2 f.d, r2 f.a]) (fun _ => True) (fun _ => s) (fun _ => .launch f 0 none) false ∧
    (∀ (q q' : Option Nat) (done n : Nat) (t u v : State),
      EndsWait s (.launch f done q) f.guard f.sense (fun m rest =>
          (if done = 0 then (s.releaseAll 3 (warpsOf (m :: rest))).1 = some t ∧ t.launchChecks f (m :: rest) = ([], u) else u = s) ∧
          u.launchAll f done ((m :: rest).drop done) = (n, true, q', v)) (fun _ _ => v) ∧
      ∀ m rest rec k, s.launchRecord f m = (.ok (rec, k), t) → s.ctxOf m.wid < 4096 →
        t.rejection (Launch.submitted (s.ctxOf m.wid) k 0 rec none 0) (t.privileged m.wid) = none →
        (∀ x, Tab.get? t.queues k = some x → x.pending.length < x.capacity →
          let h := t.appendLaunch (s.ctxOf m.wid) k rec (some (t.pts m.wid)) 0xFFFFFF
          s.launchAll f n (m :: rest) = (h.2.setPair m f.d.toNat (BitVec.ofNat 64 (h.1 * 2 ^ 32))).launchAll f (n + 1) rest ∧
          h.1 = k * 2 ^ 24 + x.nextSub.toNat ∧
          ∃ y, Tab.get? h.2.queues k = some y ∧ y.nextSub = x.nextSub + 1 ∧ y.pending = x.pending ++ [t.fresh])) ∧
    (∀ t, Does (.join f) s (ending [r1 f.b]) (fun e => s.handleBad (s.ctxOfGroup e.group) (b e) = false ∧ s.launchDone (b e) = some t)
      fun e => s.joined (warpsOf e.exec) t) ∧
    BeginsWait (.join f) s (ending [r1 f.b]) (fun e => s.handleBad (s.ctxOfGroup e.group) (b e) = false ∧ s.launchDone (b e) = none)
      (fun _ => s) (fun _ => .join f) true ∧
    Traps (.join f) s (ending [r1 f.b]) (fun e => s.handleBad (s.ctxOfGroup e.group) (b e) = true) Code.lnchState ∧
    BeginsWait (.evsig f) s (shapeXE f [r1 f.b, r1 f.c]) (fun e => b e < 4096) (fun _ => s) (fun _ => .evsig f) false ∧
    (∀ t : State, EndsWait s (.evsig f) f.guard f.sense
      (fun m rest => (s.releaseAll f.scope.toNat (warpsOf (m :: rest))).1 = some t)
      (fun m rest => t.raiseEvent (t.ctxOf m.wid) (t.reg m f.b.toNat).toNat (t.reg m f.c.toNat)
        ((warpsOf (m :: rest)).foldl (fun y w => maxs y (t.pts w)) (t.pts m.wid)))) ∧
    (∀ (c i : Nat) (n : Word) (y : LTime), i < 4096 → (s.ctx? c).isSome → (s.raiseEvent c i n y).eventValue c i = s.eventValue c i + n) ∧
    BeginsWait (.evwait f) s (ending [r1 f.b, r1 f.c]) (fun e => b e < 4096) (fun _ => s) (fun _ => .evwait f) false ∧
    Traps (.evsig f) s (shapeXE f [r1 f.b, r1 f.c]) (fun e => 4096 ≤ b e) Code.lnchState ∧
    Traps (.evwait f) s (ending [r1 f.b, r1 f.c]) (fun e => 4096 ≤ b e) Code.lnchState ∧
    (∀ mask u, BeginsWait (.sgset g) s (shapeXS 8 g [r2 g.a])
      (fun e => s.privileged e.first.wid = true ∧ s.groupMask g e.first = (.ok mask, u)) (fun _ => u) (fun _ => .sgset g) false ∧
      EndsWait s (.sgset g) g.guard g.sense
        (fun m _ => s.groupBusy (s.ctxOf m.wid) (32 + g.simm.toNat % 32) = false ∧ s.groupMask g m = (.ok mask, u))
        (fun m _ => u.modCtx (s.ctxOf m.wid) fun c => { c with groups := Tab.set 0 c.groups (g.simm.toNat % 32) mask })) ∧
    Traps (.sgset g) s (shapeXS 8 g [r2 g.a]) (fun e => s.privileged e.first.wid = false) Code.privilege ∧
    (∀ x : Block, Does (.prio g) s (shapeXS 8 g [])
      (fun e => (g.simm.toNat % 4 ≤ s.recField e.first.wid 435 434 ∨ s.privileged e.first.wid = true) ∧ s.block? (s.blockOf e.first.wid) = some x)
      fun _ => s.modLaunch x.launch fun l => { l with prio := g.simm.toNat % 4, promoted := 0, eligibleSince := s.elapsed }) ∧
    Traps (.prio g) s (shapeXS 8 g [])
      (fun e => s.recField e.first.wid 435 434 < g.simm.toNat % 4 ∧ s.privileged e.first.wid = false) Code.privilege

/-! ### System registers, saved contexts, and what observes -/

/-- R338: SRD reads a register, a wide one into a pair; SWR waits until its writes have taken effect; both need privilege but for the home
clocks (SRD) and LCCTL, and SWR faults with SYSSTATE on a value that its register does not take. Log entries 78 and 79 read which code a
refused access gives. -/
def Obligations.SystemRegisters : Prop :=
  ∀ (s : State) (f : XS),
    let sel := f.simm.toNat
    let open_ := sel ≤ 3 ∨ sel = 0x25
    let v : Member → Nat := fun m => s.sysRead (s.ctxOf m.wid) sel
    let sh : BitVec 8 → Bool → Shape := fun d ok => { shapeXS 8 f [if sysWide sel then r2 d else r1 d] with fits := ok }
    WritesRow (.srd f) s (sh f.d (sysReadable sel)) (fun e => open_ ∨ ∀ m ∈ e.exec, s.privileged m.wid = true) f.d.toNat
      (if sysWide sel then 2 else 1) (fun _ m j => BitVec.ofNat 32 (v m / 2 ^ (32 * j))) ∧
    Traps (.srd f) s (sh f.d (sysReadable sel)) (fun e => ¬open_ ∧ ∀ m ∈ e.exec, s.privileged m.wid = false) Code.privilege ∧
    BeginsWait (.swr f) s (sh f.b (sysWritable sel)) (fun e => ∀ m ∈ e.exec, s.swrStop f m = none) (fun _ => s) (fun _ => .swr f 0) false ∧
    (∀ id x served m rest t, Tab.get? s.waits id = some x → x.kind = .swr f served → s.waitStands id x = true →
      (s.waitExec x f.guard f.sense).drop served = m :: rest →
      s.sysWrite (s.ctxOf m.wid) (some m.wid) sel (s.swrValue f m) = .written t → t.ctxEnded (s.ctxOf m.wid) = false →
      exec (.waitEnd id) s = .next
        (if rest = [] then t.endWait id else { t with waits := Tab.put t.waits id { x with kind := .swr f (served + 1) } })) ∧
    (∀ m, s.swrStop f m = none ↔ (sel = 0x25 ∨ s.privileged m.wid = true) ∧
      s.sysWrite (s.ctxOf m.wid) (some m.wid) sel (s.swrValue f m) ≠ .breaks) ∧
    Traps (.swr f) s (sh f.b (sysWritable sel)) (fun e => sel ≠ 0x25 ∧ ∀ m ∈ e.exec, s.privileged m.wid = false) Code.privilege ∧
    Traps (.swr f) s (sh f.b (sysWritable sel)) (fun e => ∀ m ∈ e.exec, s.privileged m.wid = true ∧
      s.sysWrite (s.ctxOf m.wid) (some m.wid) sel (s.swrValue f m) = .breaks) Code.sysState

/-- R336, R351, R354 to R357: SAVEX and RESTX wait for their warps; WATCH and UNWATCH wait until the change applies, which may come about as
they issue or later; EVMARK records; RDCAP reads the capability list; FREEZE ends its context, or under .snap waits for the freeze that it
begins. That choice is log entry 71. -/
def Obligations.SavesWatchesAndMarks : Prop :=
  ∀ (s : State) (f : XS) (fe : XE),
    let saves : Instr → WaitKind → Bool → (State → Nat → Member → Except Stop Unit × State) → Prop := fun i k writes act =>
      BeginsWait i s (shapeXS 8 f [r2 f.a])
        (fun e => (∀ m ∈ e.exec, (∀ w, s.warp? m.wid = some w → f.simm.toNat < 2 ^ (w.alloc / 16)) ∧
          ∀ u, e.uniform m.wid = some u → (s.pair u f.a.toNat).toNat % 4096 = 0) ∧ (e.saveStops s f writes).1 = [])
        (fun e => (e.saveStops s f writes).2) (fun _ => k) false ∧
      ∀ u : State, EndsWait s k f.guard f.sense
        (fun m rest => (warpsOf (m :: rest)).foldlM (fun (y : State) w => match (m :: rest).filter (fun n => n.wid == w) with
          | n :: _ => (match act y w n with | (.ok (), z) => some z | _ => none)
          | [] => some y) s = some u) (fun _ _ => u)
    let changes : Instr → Shape → (Env → Prop) → State → Option Nat × Option (BitVec 512) → Prop := fun i sh ok u c =>
      BeginsWait i s sh ok (fun e => if Config.choice u.turn % 2 = 0 then u.changeWatch (u.ctxOfGroup e.group) c else u)
        (fun _ => if Config.choice u.turn % 2 = 0 then .watch none else .watch (some c)) false
    let frz : Shape := { shapeXS 8 f [] with place := .ending }
    saves (.savex f) (.savex f) true (fun y w m => y.saveWarp f w m) ∧ saves (.restx f) (.restx f) false (fun y w m => y.restoreWarp f w m) ∧
    (∀ v u, changes (.watch fe) (shapeXE fe [r2 fe.a])
      (fun e => s.readObject e.first (s.pair e.first fe.a.toNat).toNat 64 64 = (.ok v, u) ∧ watchFits (BitVec.ofNat 512 v) = true) u
      (some (fe.var8.toNat % 16), some (BitVec.ofNat 512 v))) ∧
    (∀ v u, Traps (.watch fe) s (shapeXE fe [r2 fe.a])
      (fun e => s.readObject e.first (s.pair e.first fe.a.toNat).toNat 64 64 = (.ok v, u) ∧ watchFits (BitVec.ofNat 512 v) = false) Code.engState) ∧
    changes (.unwatch f) (shapeXS 8 f []) (fun _ => True) s (if f.simm.getLsbD 4 then none else some (f.simm.toNat % 16), none) ∧
    Does (.evmark f) s (shapeXS 8 f [r2 f.a]) (fun _ => True) (fun e =>
      s.recordWarp e.first.wid 0x0F ((s.pair e.first f.a.toNat).toNat + f.simm.toNat % 256 * 2 ^ 64 + e.exec.length * 2 ^ 72)) ∧
    WritesRow (.rdcap f) s { shapeXS 8 f [r2 f.d, r1 f.b] with cycles := 4 } (fun _ => True) f.d.toNat 2
      (fun _ m j => BitVec.ofNat 32 (s.mgmt.caps.toNat / 2 ^ (64 * ((s.reg m f.b.toNat).toNat / 8) + 32 * j))) ∧
    (f.simm.getLsbD 8 = false → ∀ e c, Issues s frz e → s.ctx? (s.ctxOfGroup e.group) = some c → c.ended = false →
      s.ctxOf e.first.wid = s.ctxOfGroup e.group →
      ∃ t, exec (.freeze f) s = .next t ∧ t.ctxEnded (s.ctxOfGroup e.group) = true ∧ KeepsRegs s t [] []) ∧
    (f.simm.getLsbD 8 = true →
      BeginsWait (.freeze f) s frz (fun e => ∀ m ∈ e.exec, s.privileged m.wid = true)
        (fun e => s.beginFreeze e.core (some (s.ctxOfGroup e.group)) (f.simm &&& 255) 1 []) (fun _ => .snapshot s.fresh) false ∧
      Traps (.freeze f) s frz (fun e => ∀ m ∈ e.exec, s.privileged m.wid = false) Code.privilege)

/-! ### Traps -/

/-- R327, R334, R335, R322, R324: TRAP and BKPT stop their group at themselves with USERTRAP or BREAK and their number; TRAP.SVC puts one entry
for each executing thread in the context's ring, and they wait for their replies; TRET waits for its warps, and PREACK acknowledges; both
fault with TSTATE outside their handlers. Log entry 75 reads when TRET returns its warp. -/
def Obligations.TrapInstructions : Prop :=
  ∀ (s : State) (n a d : BitVec 7) (b : Bool) (f : XS),
    let asks : Instr → Shape → BitVec 16 → Nat → Prop := fun i sh code n =>
      ∀ e, Issues s sh e → exec i s = .next (s.raiseAt e 1 (e.exec.map fun m => (m, ⟨code, 0⟩)) (BitVec.ofNat 64 n))
    let ending : Nat → XS → Shape := fun len f => { shapeXS len f [] with place := .ending }
    asks (.trap n) (ending 4 (s.sys32 0 0 (n.zeroExtend 16))) Code.userTrap (n.toNat % 256) ∧
    asks (.trapW f) (ending 8 f) Code.userTrap (f.simm.toNat % 256) ∧
    asks (.bkpt f) (shapeXS 8 f []) Code.break_ (f.simm.toNat % 256) ∧
    (∀ (i : Instr) (len : Nat) (f : XS), (i, len, f) ∈ [(Instr.trapSvc n a d, 4, s.sys32 d a (n.zeroExtend 16)), (.trapSvcW f, 8, f)] →
      ∀ (e : Env) (c : Ctx) (args : List (Member × Nat)) (u v x : State), Issues s { shapeXS len f [r2 f.a, r4 f.d] with place := .ending } e →
        let ctx := s.ctxOfGroup e.group
        let k := e.exec.length
        let seq : Nat → Nat := fun j => (c.svcSeq.toNat + j) % 2 ^ 32
        s.ctx? ctx = some c → e.serviceArgs s f.a.toNat = (args, [], u) → c.serviceRoom k = true → e.exec.Nodup → k < 2 ^ 32 →
        (readyAll (fun (y : State) (p : Nat × Member × Nat) =>
          y.ctxWrite ctx (c.serviceAt p.1) 128 (serviceEntry p.2.2 p.1 (f.simm.toNat % 256) p.2.1.lane k
            ((((y.warp? p.2.1.wid).bind y.launchOfWarp).map (·.queue)).getD 0) ctx (((y.warp? p.2.1.wid).map (·.saveSlot)).getD 0)))
          u (((List.range k).map seq).zip args)).1 = some v →
        (v.announceService ctx c ((c.svcSeq.toNat + k) % 2 ^ 32)).1 = some x →
        ∃ t, exec i s = .next t ∧ (t.quarter e.q).slot = none ∧ t.mem = x.mem ∧
          ∀ j m, e.exec[j]? = some m →
            (∀ y, t.thread? m = some y → y.status = .service (BitVec.ofNat 32 (seq j)) f.d.toNat) ∧
            ∀ y, t.ctx? ctx = some y → Tab.get? y.svc (seq j) = some ⟨m.wid, m.lane, f.d.toNat, len, c.svcSeq, k, false, 0, 0⟩) ∧
    (∀ (i : Instr) (len : Nat) (f : XS), (i, len, f) ∈ [(Instr.tret b, 4, s.sys32 0 0 (if b then 1 else 0)), (.tretW f, 8, f)] →
      BeginsWait i s (ending len f) (fun e => ∀ m ∈ e.exec, ∀ w, s.warp? m.wid = some w → w.level ≠ 0) (fun _ => s) (fun _ => .tret f) false ∧
      (∀ (id : Nat) (x : Wait) (m : Member) (rest : List Member) (t : State), Tab.get? s.waits id = some x → x.kind = .tret f →
        s.waitStands id x = true → s.waitExec x f.guard f.sense = m :: rest →
        let wids := warpsOf (m :: rest)
        (∀ w ∈ wids, s.handlerDone w = true) →
        wids.foldlM (fun (y : State) w => match y.tret w (f.simm.getLsbD 0) with | .done z => some z | _ => none)
          { s with waits := Tab.put s.waits id { x with members := x.members.filter fun n => !wids.contains n.wid } } = some t →
        exec (.waitEnd id) s = .next (wids.foldl (fun y w => y.deliverServices (y.ctxOf w)) (t.endWait id))) ∧
      Traps i s (ending len f) (fun e => ∀ m ∈ e.exec, ∃ w, s.warp? m.wid = some w ∧ w.level = 0) Code.tState) ∧
    (∀ (i : Instr) (len : Nat) (f : XS), (i, len, f) ∈ [(Instr.preack, 4, s.sys32 0 0 0), (.preackW f, 8, f)] →
      Does i s (shapeXS len f []) (fun e => ∀ m ∈ e.exec, ∀ w, s.warp? m.wid = some w → w.level = 1 ∧ w.frameKind = 1)
        (fun e => s.modMembers (e.exec.filter fun m => (s.warp? m.wid).any fun w => !w.graceOver) fun t => { t with acked := true }) ∧
      Traps i s (shapeXS len f []) (fun e => ∀ m ∈ e.exec, ∃ w, s.warp? m.wid = some w ∧ (w.level ≠ 1 ∨ w.frameKind ≠ 1)) Code.tState)

/-- R79, R13, R19, R18: the checks before an instruction's own effect: an instruction that breaks a rule faults with ILLEGAL in every thread of
its group, whatever its guard; a group none of whose threads executes moves on with nothing done; a pending register or a full flag holds it
at issue. -/
def Obligations.ChecksBeforeEffect : Prop :=
  ∀ (s : State) (f : X3) (fm : XM) (fe : XE) (fs : XS) (i : Instr) (sh : Shape), (i, sh) ∈
      [(Instr.iaddW f, shapeX3 8 f [r1 f.d, r1 f.a, r1 f.b]), (.faddW f, shapeX3 8 f [r1 f.d, r1 f.a, r1 f.b]),
       (.await f, shapeX3 8 f []), (.fence fm, shapeXM fm (if fenceStatus fm then [r1 fm.d] else [])),
       (.launch fe, { shapeXE fe [r2 fe.d, r2 fe.a] with place := .ending }), (.trapW fs, { shapeXS 8 fs [] with place := .ending }),
       (.srd fs, { shapeXS 8 fs [if sysWide fs.simm.toNat then r2 fs.d else r1 fs.d] with fits := sysReadable fs.simm.toNat }),
       (.bkpt fs, shapeXS 8 fs [])] →
    ∀ e, s.env? sh = some e →
      (e.legal s sh = false → exec i s = .next (s.raiseAt e 1 (e.members.map fun m => (m, ⟨Code.illegal, BitVec.ofNat 64 e.pc⟩)) 0)) ∧
      (e.legal s sh = true →
        ((∃ m ∈ e.exec, s.pendingAny m sh.regs = true) → ∃ t, exec i s = .next t ∧ Kept s t ∧ ∀ m, t.thread? m = s.thread? m) ∧
        (e.exec = [] → ∃ t, exec i s = .next t ∧ Kept s t ∧ KeepsRegs s t [] [] ∧ KeepsPreds s t [] [] ∧ Arrives s t e s.now fun _ => none))

/-- R141, R311, R314: a fault that a handler takes gives up the slot, stops the live threads of the group, and gives each warp a trap with its
code, its group and its information; while the warp has work that entry waits for, nothing else happens. R311, R315 to R317: a trap whose
warp has nothing left that entry waits for comes about: the frame and the hidden return entries are in memory, the level is that of the
handler, and every live thread stands at its entry, with PART 32, no loops and an empty chain. -/
def Obligations.FaultsAndTrapEntry : Prop :=
  (∀ (s : State) (q : Nat) (members : List Member) (causes : List (Member × LaneCause)) (c : Member × LaneCause) (info : BitVec 64),
    (∀ x ∈ causes, fatalCode x.2.code = false) → worst causes = some c →
    (s.sys.rdbase = 0 ∨ ∀ x ∈ causes, x.2.code ≠ Code.watch ∧ x.2.code ≠ Code.overRead) →
    (∀ wid ∈ warpsOf members, ∃ w, s.warp? wid = some w ∧ (s.route w wid).isSome ∧ s.drained wid w = false) →
    let t := s.raise q members causes info
    (∀ wid ∈ warpsOf members, ∀ w, t.warp? wid = some w → ∃ r, w.trap = some r ∧ r.code = c.2.code ∧ r.kind = 0 ∧
      r.info = (if c.2.code = Code.watch ∨ c.2.code = Code.userTrap ∨ c.2.code = Code.break_ then info else 0) ∧
      r.group = maskOf ((members.filter (·.wid == wid)).map (·.lane))) ∧
    (∀ m ∈ members, ∀ x, s.thread? m = some x → x.live = true → t.thread? m = some { x with status := .stopped }) ∧
    (∀ m, m ∉ members → t.thread? m = s.thread? m) ∧
    (∀ g, (s.quarter q).slot = some g → g.members.any members.contains = true → (t.quarter q).slot = none) ∧
    t.mem = s.mem ∧ t.ctxs = s.ctxs ∧ KeepsRegs s t [] [] ∧ KeepsPreds s t [] []) ∧
  (∀ (s u : State) (wid lvl : Nat) (w x y : Warp) (h : VAddr) (r : TrapRequest),
    let s1 := (((s.drainSfu wid).leaveRendezvous wid).deferLoads wid lvl).suspendProducts wid lvl
    s.warp? wid = some w → w.trap = some r → w.resident = true → s.ctxEnded (s.ctxOf wid) = false → s.drained wid w = true →
    s.takeable wid w = true → r.kind = 0 → s.route w wid = some (lvl, h) → s1.warp? wid = some x →
    s1.storeLines wid (s1.frameLines wid lvl x r ++ s1.hiddenLines wid x) = (.ok (), u) → u.warp? wid = some y → u.sys.rdbase = 0 →
    (∀ v, u.fetchHeader x.core (u.ctxOf wid) h.toNat = .word v → validHeader (v.extractLsb' 0 32) = true ∧ h.getLsbD 0 = false) →
    ∃ t, exec (.trapEntry wid) s = .next t ∧ t.warp? wid = some { y.handled lvl h r s.now with stoppedOn := s.barrierStop wid y } ∧
      (∀ z, t.warp? wid = some z → z.level = lvl ∧ z.part = 32 ∧ z.trap = none) ∧
      (∀ l t0 t1, Tab.get? y.threads l = some t0 → t0.live = true → t.thread? ⟨wid, l⟩ = some t1 →
        t1.pc = h ∧ t1.pos = 0 ∧ t1.status = .running ∧ t1.loops = [] ∧ t1.hidden = [] ∧ t1.regs = t0.regs ∧ t1.preds = t0.preds) ∧
      t.mem = u.mem ∧ t.ctxs = u.ctxs ∧ t.sys = u.sys)

/-- R322: a return takes every thread back to what its lane record says: PC, position and run header, V0 to V7, loop counters, loops and return
chain; the level falls by one, and the held counts and suspended products come back. -/
def Obligations.Returns : Prop :=
  ∀ (s u : State) (wid : Nat) (next : Bool) (w : Warp) (vs : List Nat),
    let lanes := (List.range 32).filter fun l => (Tab.get? w.threads l).any Thread.live
    let base := s.frameAt wid w.level
    let head := vs.headD 0
    s.warp? wid = some w → w.preempt = false → w.watchQueue = none →
    s.loadLines wid (base :: lanes.map fun l => base + 0x200 + 128 * l) = (.ok vs, u) →
    u.warp? wid = some w → (∀ m, u.thread? m = s.thread? m) → u.sys.rdbase = 0 →
    let images := (lanes.zip (vs.tail.map LaneImage.ofNat)).filter fun x => decide (2 ≤ x.2.state) && decide (x.2.state ≤ 6)
    (field head 19 19 ≠ (if w.mmode then 1 else 0) → s.tret wid next = .bad Code.modeState) ∧
    (field head 19 19 = (if w.mmode then 1 else 0) → (∀ x ∈ images, u.imageFits w.core (s.ctxOf wid) x.2 = true ∧ x.2.hidn = 0 ∧ x.2.pdaddr = 0) →
      ∃ t, s.tret wid next = .done t ∧ (t.quarter w.quarterOf).fabric =
        requeue (u.quarter w.quarterOf).fabric ((w.suspended.filter (·.1 == w.level)).map (·.2)) ∧
        (∀ y, t.warp? wid = some y → y.level = w.level - 1 ∧ y.part = 2 ^ field head 22 20 ∧
          ∀ f, f < 12 → y.flag f = w.flag f + Tab.getD w.held (16 * w.level + f) 0) ∧
        ∀ x ∈ images, ∀ y, t.thread? ⟨wid, x.1⟩ = some y →
          (∀ k, k < 8 → y.reg k = x.2.regs.getD k 0) ∧ (∀ k, 8 ≤ k → y.reg k = s.reg ⟨wid, x.1⟩ k) ∧
          (next = false ∨ x.2.state ≠ 2 → y.pc = x.2.pc ∧ y.pos.toNat = x.2.pos ∧ y.rhdr = x.2.rhdr ∧ y.loops = x.2.loops ∧ y.lcs = x.2.lcs ∧
            y.hidden = []))

/-! ### Steps that are not instructions -/

/-- R110, R131, R138, R139, R143, R232 to R234, R109: a group takes a free slot at its run header or goes on with its run; SLEEP ends; results
of special functions are written; the times of warps and clocks move on, and old times are clamped; a warp whose threads have all exited is
released. Log entries 42 and 77 read from when age and creep count. -/
def Obligations.SchedulingAndTime : Prop :=
  ∀ (s : State),
    (∀ q, (s.quarter q).slot ≠ none → exec (.arbitrate q) s = .next s) ∧
    (∀ (q : Nat) (ready : List Ready) (r : Ready) (h : Word),
      let awake := ready.filter fun r => r.group.all fun b => !b.t.yielded
      let l := if awake.isEmpty then ready else awake
      let g := s.formGroup l r
      (s.quarter q).slot = none → s.owedIn q = [] → s.readyIn q = (ready, []) → seedOf (s.quarter q).wp (s.quarter q).lp l = some r → r.a.lead = .run h →
      (g.map (·.m)).Nodup → (∀ b ∈ g, b.lead = .run h) →
      ∃ t, exec (.arbitrate q) s = .next t ∧ (t.quarter q).slot = some ⟨g.map (·.m), r.a.m.wid⟩ ∧ (t.quarter q).wp = (r.slot + 1) % 16 ∧
        ∀ b ∈ g, ∀ x, t.thread? b.m = some x → x.rhdr = h ∧ x.pc = b.x.first ∧ x.wmask = 0) ∧
    (∀ wid lane x, s.thread? ⟨wid, lane⟩ = some x → x.notBefore ≤ s.now →
      ∃ t, exec (.sleepExpiry wid lane) s = .next t ∧ t.thread? ⟨wid, lane⟩ = some { x with notBefore := 0 } ∧ t.rest = s.rest ∧
        KeepsRegs s t [] [] ∧ KeepsPreds s t [] []) ∧
    (∀ wid w, s.warp? wid = some w → w.resident = true → s.ctxEnded (s.ctxOf wid) = false → w.liveLanes = [] →
      w.flagsZero (BitVec.allOnes 12) = true → (∀ p ∈ (s.quarter w.quarterOf).fabric, p.wid ≠ wid) →
      ∃ t, exec (.warpRelease wid) s = .next t ∧ ∀ x, t.warp? wid = some x → x.residence = .released) ∧
    (∀ wid w, s.warp? wid = some w → w.place? ≠ none → w.crept < s.periods →
      ∃ t, exec (.ptsCreep wid) s = .next t ∧ t.warp? wid = some { w with pts := w.pts + 1, crept := w.crept + 1 } ∧ t.rest = s.rest ∧
        ∀ v, v ≠ wid → t.warp? v = s.warp? v) ∧
    (∀ clk, clockExists clk = true → Tab.getD s.ticks (clockKey clk) 0 < s.periods →
      ∃ t, exec (.clockTick clk) s = .next t ∧ t.clock (clockKey clk) = s.clock (clockKey clk) + 1 ∧
        (∀ k, k ≠ clockKey clk → t.clock k = s.clock k) ∧ t.warps = s.warps) ∧
    (∀ q pre e rest, (s.quarter q).sfu = pre ++ e :: rest → (∀ x ∈ pre, x.waiting = []) → lowestSet e.waiting ≠ [] →
      ∃ t, exec (.sfuService q) s = .next t ∧ KeepsRegs s t [] [] ∧ (t.quarter q).sfu = pre ++ { e with
        waiting := e.waiting.filter (fun l => !(lowestSet e.waiting).contains l), served := e.served ++ lowestSet e.waiting } :: rest) ∧
    (∀ q e rest f, (s.quarter q).sfu = e :: rest → (∀ x ∈ rest, x.served = []) → e.served ≠ [] → Special.ofCode e.fn = f → f ≠ .sincos →
      ((lowestSet e.served).map fun l => (l.wid, l.lane)).Nodup →
      ∃ t, exec (.sfuResultWrite q) s = .next t ∧
        (∀ l ∈ lowestSet e.served, ∀ x, s.thread? ⟨l.wid, l.lane⟩ = some x →
          t.reg ⟨l.wid, l.lane⟩ l.d = if x.live then specialValue f e.ftz e.rm l.src else x.reg l.d) ∧
        ∀ m r, (∀ l ∈ lowestSet e.served, l.wid ≠ m.wid ∨ l.lane ≠ m.lane ∨ l.d ≠ r) → t.reg m r = s.reg m r) ∧
    (∀ clk, (∀ q, clk ≠ .home q) → ∃ t, exec (.localAgeingSweep clk) s = .next t ∧
      ∀ p l c, l < 2 ^ 49 → s.copy? p l = some c → ∃ d, t.copy? p l = some d ∧ d.data = c.data ∧ d.dirty = c.dirty ∧
        d.rts = if pointClock p l = clockKey clk then clampTime (sweepMark (s.clock (clockKey clk))) c.rts else c.rts) ∧
    (∀ qd, qd < 4 → ∃ t, exec (.homeAgeingSweep qd) s = .next t ∧ ∀ l,
      (t.home l).wts = if homeOf l = qd then clampTime (sweepMark (s.clock qd)) (s.home l).wts else (s.home l).wts)

/-- R144: a wait ends for its whole group at once, with its instruction complete, when what it waits for has come about; until then it goes on.
A retried instruction is met again. -/
def Obligations.WaitsEnd : Prop :=
  ∀ (s : State) (id : Nat) (x : Wait), Tab.get? s.waits id = some x →
    let ends : State → Prop := fun t => ∀ m u, m ∈ x.members → s.thread? m = some u → u.status = .waiting id →
      ∀ y, t.thread? m = some y → y.status = .running ∧
        (u.pos.toNat + 1 < hdrLen u.rhdr → y.pc = u.pc + BitVec.ofNat 56 x.len ∧ y.pos = u.pos + 1 ∧ y.rhdr = u.rhdr)
    Tab.get? (s.endWait id).waits id = none ∧ ends (s.endWait id) ∧
    (∀ m, m ∉ x.members → (s.endWait id).thread? m = s.thread? m) ∧
    (∀ m u, m ∈ x.members → s.thread? m = some u → u.status = .waiting id →
      ∀ y, (s.retryWait id).thread? m = some y → y = { u with status := .running, readySince := s.now + 1 }) ∧
    (s.waitStands id x = true →
      (∀ f, x.kind = .join f → ∀ m rest, s.waitExec x f.guard f.sense = m :: rest →
        (∀ t, s.launchDone (s.reg m f.b.toNat).toNat = some t → exec (.waitEnd id) s = .next ((s.joined (warpsOf (m :: rest)) t).endWait id)) ∧
        (s.launchDone (s.reg m f.b.toNat).toNat = none → exec (.waitEnd id) s = .next s)) ∧
      (∀ f, x.kind = .evwait f → ∀ m rest, s.waitExec x f.guard f.sense = m :: rest →
        (s.eventReached f m = true → ∃ t, exec (.waitEnd id) s = .next t ∧ Tab.get? t.waits id = none ∧ ends t ∧ KeepsRegs s t [] []) ∧
        (s.eventReached f m = false → exec (.waitEnd id) s = .next s)) ∧
      (∀ (f : XE) (st : Member → BitVec 32) (c : Member → Option LTime), x.kind = .tkwait f →
        (∀ m ∈ s.waitExec x f.guard f.sense, s.tokenResult (s.ctxOf m.wid) (s.pair m f.a.toNat) = some (st m, c m)) →
        (s.waitExec x f.guard f.sense).Nodup →
        ∃ t, exec (.waitEnd id) s = .next t ∧ Tab.get? t.waits id = none ∧
          (f.var8.getLsbD 0 = true → (∀ m ∈ s.waitExec x f.guard f.sense, s.thread? m ≠ none → t.reg m f.d.toNat = st m) ∧
            KeepsRegs s t (s.waitExec x f.guard f.sense) [f.d.toNat]) ∧
          (f.var8.getLsbD 0 = false → KeepsRegs s t [] [])) ∧
      (∀ m rest c, x.kind = .watch (some c) → x.members = m :: rest →
        exec (.waitEnd id) s = .next ((s.changeWatch (s.ctxOf m.wid) c).endWait id)) ∧
      (∀ r, x.kind = .snapshot r → (∀ q ∈ s.freezeReqs, q.id ≠ r) → (∀ z, s.freeze = some z → r ∉ z.ids) →
        exec (.waitEnd id) s = .next (s.endWait id)) ∧
      (∀ r, x.kind = .retry r → exec (.waitEnd id) s = .next (if s.retryReady x r then s.retryWait id else s)))

/-- R204, R235, R237, R240, R241, R330, R331: a load request is served by a copy that covers it, or goes on outward; a load whose absent lines
have come takes their values; one that meets an error takes DATAERR and writes nothing; dirty bytes move outward and leave their point
clean; atomics are arbitrated, retried and performed; leases of a die are granted and recalled. Which clean copies stay, and OVERREAD at
delivery, are log entries 38 and 51. -/
def Obligations.MemoryEvents : Prop :=
  ∀ (s : State),
    (∀ (k : Nat) (q : LineReq) (c : Copy), Tab.get? s.mem.reqs k = some q → q.stage = .l1 → q.kind = .leased → q.sampled = false →
      Tab.get? s.mem.ops q.op ≠ none → s.olderRequest k q = false →
      let p := s.corePoint q.core
      let u := s.bump (pointClock p q.line) (s.pts q.wid)
      (u.copy? p q.line = some c → copyServes c .leased q.mask (s.pts q.wid) (s.staleWindow q.wid) = true →
        ∃ t, exec (.leasedLoadRequest k) s = .next t ∧ Tab.get? t.mem.reqs k = some { q with stage := .served, data := c.data } ∧
          ∀ w x, t.warp? q.wid = some x → s.warp? q.wid = some w → x.ots = maxs w.ots c.wts ∧ x.pts = w.pts) ∧
      (u.copy? p q.line = none → ∃ t, exec (.leasedLoadRequest k) s = .next t ∧
        Tab.get? t.mem.reqs k = some { q with stage := .l2, held := none } ∧ t.warps = s.warps)) ∧
    (∀ (op : Nat) (o : Op) (c : Bool), Tab.get? s.mem.ops op = some o → o.kind = .load c → o.lines ≠ [] → o.lines.Nodup →
      (∀ l ∈ o.lines, (s.scratchLine l).present = true) → (∀ w ∈ o.warps, ∀ x, s.warp? w = some x → x.defers op = false) →
      (∀ d ∈ o.dests, d.scratch = true → d.val = none →
        (s.scratchLine (d.pa / 128)).count ≠ .dropped ∧ (s.scratchLine (d.pa / 128)).poison = false) →
      (∀ l ∈ o.lines, (s.scratchLine l).count ≠ .dropped) →
      ∃ t, exec (.absentLineDelivery op) s = .next t ∧ KeepsRegs s t [] [] ∧
        Tab.get? t.mem.ops op = some { o with lines := [], dests := o.dests.map fun d =>
          if d.scratch && d.val.isNone then
            { d with val := some (BitVec.ofNat 128 (lineRead (s.scratchLine (d.pa / 128)).data (d.pa % 128) d.size)) } else d } ∧
        (c = false → ∀ l, t.scratchLine l = s.scratchLine l) ∧
        (c = true → ∀ l ∈ o.lines, (t.scratchLine l).count = (s.scratchLine l).count.take)) ∧
    (∀ (op k : Nat) (o : Op) (c : Bool) (d : Dest) (q : LineReq) (w : Warp) (f : Nat), Tab.get? s.mem.ops op = some o → o.kind = .load c →
      o.dests = [d] → o.flags = [(d.wid, f)] → d.scratch = false → (k, q) ∈ s.mem.reqs → q.op = op → q.stage = .home →
      s.lineBad q.line = true → q.wid = d.wid → q.line = d.pa / 128 → (s.thread? ⟨d.wid, d.lane⟩).map (·.status) = some .running →
      s.warp? d.wid = some w → w.trap = none →
      (∀ g, (s.quarter w.quarterOf).slot = some g → ⟨d.wid, d.lane⟩ ∉ g.members) →
      ∃ u, exec (.dataerrLoad op) s = .next (u.raise w.quarterOf [⟨d.wid, d.lane⟩] [(⟨d.wid, d.lane⟩, ⟨Code.dataErr, d.va⟩)] 0) ∧
        Tab.get? u.mem.ops op = none ∧ KeepsRegs s u [] [] ∧ ∀ x, u.warp? d.wid = some x → x.flag f = w.flag f - 1) ∧
    (∀ (k : Nat) (h : HomeReq) (u : State), Tab.get? s.mem.homeReqs k = some h → s.earlierAtomic k h = false → h.point = none →
      s.lineBad h.line = false → isRemote (h.line * 128) = false → h.grant = .granted → (s.atomicHome k h).1 = some u →
      exec (.homeStore k) s = .next u ∧ Tab.get? u.mem.homeReqs k = none) ∧
    (∀ (i : Instr) (pt : Point) (line : Nat) (c : Copy) (u : State), s.copy? (pointNum pt) line = some c → c.dirty ≠ 0 →
      (i = .writeBack pt line ∨ (i = .dirtyAgeWriteback pt line ∧ 65536 ≤ s.now - c.dirtySince)) →
      isRemote (line * 128) = false → homeOf line = pointDie (pointNum pt) → pointNum pt < 3000 →
      (s.writeBack (pointNum pt) line none false).1 = some u →
      ∃ t, exec i s = .next t ∧ t.mem = u.mem ∧ ∀ d, t.copy? (pointNum pt) line = some d → d.dirty = 0) ∧
    (∀ (line w : Nat),
      let contends : Nat × HomeReq → Bool := fun x =>
        x.2.line == line && x.2.point.isNone && x.2.grant == .sent && !isRemote (line * 128) && !s.earlierAtomic x.1 x.2
      (s.mem.homeReqs.map (·.1)).Nodup → (∀ x ∈ s.mem.homeReqs, x.2.line = line → x.2.point = none → x.2.grant ≠ .granted) →
      arbitrationWinner s.slicePointer ((s.mem.homeReqs.filter contends).map fun x => (x.1, x.2.index)) = some w →
      ∃ t, exec (.homeSliceArbitration line) s = .next t ∧ t.warps = s.warps ∧
        t.mem.homeReqs = s.mem.homeReqs.map fun x =>
          if contends x then (x.1, { x.2 with grant := if x.1 = w then .granted else .retry }) else x) ∧
    (∀ k h, Tab.get? s.mem.homeReqs k = some h → h.grant = .retry →
      ∃ t, exec (.retry k) s = .next t ∧ Tab.get? t.mem.homeReqs k = some { h with grant := .sent }) ∧
    (∀ die line ctx u, s.wantsDiex die line = some ctx → (s.grantDiex die line ctx).1 = some u →
      exec (.diexLeaseGrant die line) s = .next u ∧ (u.home line).dir = .diex die) ∧
    (∀ line d, (s.home line).dir = .diex d → s.wantsRecall line d = true → (∀ c ∈ s.ctxs, c.2.svcRung = []) →
      ∃ t, exec (.recall line) s = .next t ∧ (t.home line).dir = .home ∧ t.warps = s.warps ∧
        ∀ c, t.copy? (l2Point d) line = some c → c.dirty = 0) ∧
    (∀ (core ctx : Nat) (va : BitVec 56) (k : Access) (c : Ctx) (e : BitVec 64) (bits : Nat),
      let u : State := { s with mem := { s.mem with tlb := s.mem.tlb.filter fun e =>
        !((e.core == core || e.core == clusterTlb core) && e.ctx == ctx && e.page == va.toNat / 2 ^ e.bits) } }
      core < 1536 → 65536 ≤ va.toNat → s.ctx? ctx = some c → u.walkFrom va.toNat c.ptbase.toNat tableLevels = .leaf e bits →
      ∃ t, exec (.pageWalk core ctx va k) s = .next t ∧ t.warps = s.warps ∧
        t.mem.tlb.head? = some ⟨core, ctx, va.toNat / 2 ^ bits, bits, e⟩ ∧ ⟨clusterTlb core, ctx, va.toNat / 2 ^ bits, bits, e⟩ ∈ t.mem.tlb ∧
        (∀ x ∈ t.mem.tlb, x ∈ u.mem.tlb ∨ (x.core = core ∨ x.core = clusterTlb core) ∧ x.ctx = ctx ∧ x.page = va.toNat / 2 ^ bits ∧
          x.bits = bits ∧ x.leaf = e) ∧
        (t.mem.tlb.filter fun x => x.core == core).length ≤ 64 ∧ (t.mem.tlb.filter fun x => x.core == clusterTlb core).length ≤ 4096)

/-- R267 to R270, R278, R331, R332: an engine starts the next command of a queue once its sources can be read and its destinations owned; writes
its lines one by one; completes the head with its status and time, when its flags fall; aborts what meets an error, poisoning the scratchpad
lines that it leaves unwritten; and a collective takes its result once every participant has sent its chunk. Log entry 19 reads when sources
are read; the order of lines is free (log entry 6). -/
def Obligations.EnginesRunCommands : Prop :=
  ∀ (s : State) (eng ctx : Nat), ctx < 4096 →
    let k := queueKey eng ctx
    let queue : State → List Task := fun u => (u.engineQueue k).tasks
    (∀ (t : Task) (idx : List Nat) (m : Tab Line) (u v w : State),
      let own := match t.cmd with | .scat _ => distinct ((s.pieces t.block t.cmd idx).map (·.dst / 128)) | _ => s.destLines t
      (s.engineQueue k).stopped = false → s.ctxEnded ctx = false → ((queue s).find? fun t => !t.started) = some t →
      t.ctx = ctx → (∀ x ∈ queue s, x.stalled = false ∧ (x.started = true → x.hit = none)) → (∀ d sc, t.cmd ≠ .coll d sc) →
      (∀ b n, t.cmd ≠ .prefb b n) → s.taskIndices eng t = (.ok idx, u) →
      u.taskReads eng t t.fresh own (s.taskSources t idx) = (.ok m, v) →
      v.ownLines eng t ((s.taskWrites t idx m).map fun x => x.va / 128) = (.ok (), w) → queue w = queue s →
      ∃ r, exec (.tileTaskStart eng ctx) s = .next r ∧ KeepsRegs w r [] [] ∧ queue r = (queue s).map fun x =>
        if x.seq = t.seq then { x with
          started := true, writes := s.taskWrites t idx m, hit := s.taskHit t idx, rows := t.keeps idx m, cleared := [] } else x) ∧
    (∀ (t : Task) (w : LineWrite),
      let i := Config.choice s.turn % t.writes.length
      let l := slotByte t.core w.va / 128
      let x := s.finalWrite t w (s.scratchLine l).data
      (queue s).find? Task.unwritten = some t → (∀ y ∈ queue s, y.stalled = false) → t.ctx = ctx →
      t.writes[i]? = some w → (∀ b n, t.cmd ≠ .prefb b n) → scratchBase ≤ w.va → t.cnt = none → (s.scratchLine l).count ≠ .dropped → t.bars = [] →
      ∃ r, exec (.engineLineWrite eng ctx) s = .next r ∧
        (r.scratchLine l).data = mergeLine (s.scratchLine l).data x.data x.mask ∧ (r.scratchLine l).present = true ∧ (r.scratchLine l).poison = false ∧
        (∀ j, j ≠ l → r.scratchLine j = s.scratchLine j) ∧
        queue r = (queue s).map fun x => if x.seq = t.seq then { x with writes := x.writes.eraseIdx i, time := t.time, status := t.status } else x) ∧
    (∀ (t : Task) (rest : List Task), queue s = t :: rest → t.started = true → ((∃ d sc, t.cmd = .coll d sc) → t.joined = true) → t.writes = [] →
      s.taskPosted k t = false → s.ringTurn t = true → t.hit = none → t.status ≠ Status.peerLost →
      ∃ r, exec (.tileTaskComplete eng ctx) s = .next r ∧ queue r = rest ∧
        Tab.get? (r.engineQueue k).done t.seq.toNat = some (t.status, t.time) ∧
        (∀ w f x y, t.flags = [(w, f)] → s.warp? w = some x → r.warp? w = some y → y.flag f = x.flag f - 1) ∧ KeepsRegs s r [] []) ∧
    (∀ (t : Task), ((queue s).find? fun t => (s.ctxEnded ctx && t.ended) || (abortStatus t.status && (!t.writes.isEmpty || match t.cmd with
        | .coll .. => !t.joined | _ => false))) = some t →
      t.started = true → (∀ d sc, t.cmd ≠ .coll d sc) → t.bars = [] →
      ∃ r, exec (.tileTaskAbort eng ctx) s = .next r ∧
        (∀ w ∈ t.writes, scratchBase ≤ w.va →
          (r.scratchLine (slotByte t.core w.va / 128)).present = true ∧ (r.scratchLine (slotByte t.core w.va / 128)).poison = true) ∧
        queue r = (queue s).map fun x => if x.seq = t.seq then
          { x with started := true, joined := true, writes := [], stalled := false, status := if abortStatus x.status then x.status else Status.tfault }
          else x) ∧
    (∀ (t : Task) (d : BitVec 512) (sc : Nat) (bufs : List RemoteChunk) (agree : BitVec 64),
      let name : CollName := ⟨ctx, sc, BitVec.ofNat 32 (collTag d), t.inst⟩
      let own := s.sys.causkid.toNat % 512
      let ps := s.participantsOf ctx sc d
      ((queue s).find? fun t => t.started && !t.joined && !abortStatus t.status && match t.cmd with
        | .coll d sc => (s.participantsOf ctx sc d).all fun p =>
            (s.chunkFrom ⟨ctx, sc, BitVec.ofNat 32 (collTag d), t.inst⟩ p).isSome || s.host.lostPeers.contains p.1
        | _ => false) = some t → t.cmd = .coll d sc →
      (∀ p ∈ ps, p.1 = own ∧ p.2 < 4) → own ∉ s.host.lostPeers → (ps.map (·.2)).Nodup → ps.map (s.chunkFrom name) = bufs.map some → (∀ c ∈ bufs, c.agree = agree) →
      ∃ r, exec (.collRendezvous eng ctx) s = .next r ∧ ∀ q die x e sc', ps[q]? = some (own, die) → s.collTask die name = some x →
        x.cmd = .coll e sc' → ∀ y ∈ (r.engineQueue (queueKey (die * 64 + 32) ctx)).tasks, y.seq = x.seq → y.joined = true ∧
          y.writes = Tab.vals (spanWrites (collRbuf e) (collReceived e ps.length * collChunkBytes e) (collResult e q (bufs.map (·.chunk)))))

/-- R290 to R300, R305: a doorbell moves the producer index no further than the ring holds; records are taken in order, each with the next
submission number, and an ill-formed one completes as rejected; the scheduler places blocks, whose threads start at the entry point with
zero run state; a launch completes when its blocks and commands have, and its entry, index and interrupt follow; the host raises events. -/
def Obligations.LaunchesRun : Prop :=
  ∀ (s : State) (q id : Nat) (x : Queue) (l : Launch),
    (Tab.get? s.queues q = some x →
      (∀ v : BitVec 32, x.enabled = true → (v.extractLsb' 0 24 - x.consumer).toNat ≤ x.capacity →
        ∃ t, exec (.submissionDoorbell q v) s = .next t ∧ Tab.get? t.queues q = some { x with producer := v.extractLsb' 0 24 }) ∧
      (∀ v : BitVec 32, x.capacity < (v.extractLsb' 0 24 - x.consumer).toNat → exec (.submissionDoorbell q v) s = .next s) ∧
      (∀ (a b : Nat) (t u : State),
        let at_ := x.ring.toNat + 256 * (x.consumer.toNat % x.capacity)
        let record := BitVec.ofNat 2048 (a + 2 ^ 1024 * b)
        let bad := u.rejection (Launch.submitted x.ctx q 0 record none x.consumer) x.privileged
        x.enabled = true → x.producer ≠ x.consumer → x.pending.length < x.capacity → s.ctxEnded x.ctx = false →
        s.ctxRead x.ctx at_ 128 = (some a, t) → t.ctxRead x.ctx (at_ + 128) 128 = (some b, u) → Tab.get? u.queues q = some x →
        (bad = none → field record.toNat 443 436 = q → ∃ r, exec (.recordTake q) s = .next r ∧
          Tab.get? r.queues q = some { x with consumer := x.consumer + 1, nextSub := x.nextSub + 1, pending := x.pending ++ [u.fresh] } ∧
          ∃ y, r.launch? u.fresh = some y ∧ y.record = record ∧ y.sub = x.nextSub.toNat ∧ y.status = .queued) ∧
        (∀ c, bad = some c → (c = 1 ∨ field record.toNat 443 436 = q) → ∃ r, exec (.recordTake q) s = .next r ∧
          Tab.get? r.queues q = some { x with
            consumer := x.consumer + 1, nextSub := x.nextSub + 1, completions := x.completions ++ [⟨x.consumer, c, 1, x.nextSub⟩] } ∧
          r.launches = (u.forgetLaunch q x.nextSub.toNat).launches)) ∧
      (∀ c rest t t' u u', x.completions = c :: rest → (x.cplNext - x.cplCons).toNat < x.capacity →
        s.ctxWrite x.ctx (x.cpl.toNat + 16 * (x.cplNext.toNat % x.capacity)) 16 (c.entry q) = (some t, t') →
        t.ctxWrite x.ctx (x.cpl.toNat + 16 * x.capacity) 4 (x.cplNext + 1).toNat = (some u, u') → Tab.get? u.queues q = some x →
        ∃ r, exec (.completionEntryPost q) s = .next r ∧ Tab.get? r.queues q = some { x with completions := rest, cplNext := x.cplNext + 1 } ∧
          r.host.msix = (3 + x.ctx % 2045) :: u.host.msix ∧ r.mem = u.mem)) ∧
    (∀ v, q < 256 → ∃ t, exec (.completionConsumerIndex q v) s = .next t ∧
      Tab.get? t.queues q = some { Tab.getD s.queues q Queue.unbound with cplCons := v }) ∧
    (∀ t, let s1 := s.heads.foldl (fun t y => (t.makeEligible y.2).skipEmpty y.2) s
      let s2 := s1.placeOrder.foldl (fun t y => t.noteWaiter y.1 y.2) s1
      (s1.placeOrder.findSome? fun y => s2.tryPlace y.1 y.2) = some t → exec .blockPlace s = .next t) ∧
    (∀ (core first q0 b : Nat) (ps : List (Nat × Nat × Nat)) (slots : List Nat) (u v : State), s.launch? id = some l →
      s.findPlace id l true = some (core, first, q0, ps) → ((Tab.get? s.queues l.queue).bind fun q => q.freeSlots l.warps) = some (slots, b) →
      s.changeMode (clusterOf core) l.fuse = (some u, v) → u.launch? id = some l → ps.length ≤ slots.length →
      ∃ t, s.tryPlace id l = some t ∧ (∃ y, t.launch? id = some y ∧ y.nextBlock = l.nextBlock + 1 ∧ y.status = .running) ∧
        (∃ y, t.block? u.fresh = some y ∧ y.launch = id ∧ y.linear = l.nextBlock ∧ y.core = core ∧ y.firstLine = first) ∧
        ∀ i qq slot base, ps[i]? = some (qq, slot, base) → ∃ w, t.warp? (u.fresh + 1 + i) = some w ∧ w.residence = .resident core qq slot base ∧
          w.level = 0 ∧ ∀ lane th, Tab.get? w.threads lane = some th →
            th.pc = BitVec.ofNat 56 (l.get 55 0) ∧ th.pos = 0 ∧ th.rhdr = 0 ∧ th.loops = [] ∧ th.status = .running) ∧
    (s.launch? id = some l →
      (∀ p, (p, id) ∈ s.heads → l.status = .eligible → l.prio + l.promoted < 3 → l.eligibleSince + (l.promoted + 1) * msTime ≤ s.elapsed →
        ∃ t, exec (.priorityPromotion id) s = .next t ∧ t.launch? id = some { l with promoted := l.promoted + 1 }) ∧
      (∀ since core, l.waiter = some (since, core, false) → since + 4096 ≤ s.now →
        ∃ t, exec (.candidateReserve id) s = .next t ∧ t.launch? id = some { l with waiter := some (since, core, true) }) ∧
      (∀ t u y, s.launchQuiet id l = true → (s.releaseRegions l.ctx fun r => r.launch == id).flushFor l.ctx = (some t, u) →
        Tab.get? t.queues l.queue = some x → t.launch? id = some y →
        ∃ r, exec (.launchComplete id) s = .next r ∧ r.launch? id = some { y with status := .complete } ∧
          Tab.get? r.queues l.queue = some { x with completions := x.completions ++ [⟨l.ridx, 0, 0, BitVec.ofNat 24 l.sub⟩] } ∧ r.mem = t.mem)) ∧
    (∀ (ctx : Nat) (v : BitVec 64) (c : Ctx), s.ctx? ctx = some c →
      (v.extractLsb' 12 20 = 0 → ∃ t, exec (.hostEventRaise ctx v) s = .next t ∧
        t.eventValue ctx (v.toNat % 4096) = s.eventValue ctx (v.toNat % 4096) + v.extractLsb' 32 32 ∧
        ∀ i, i ≠ v.toNat % 4096 → t.eventValue ctx i = s.eventValue ctx i) ∧
      (v.extractLsb' 12 20 ≠ 0 → exec (.hostEventRaise ctx v) s = .next s))

/-- R301, R305, R330: a warp whose live threads all wait in a way that counts toward parking gives up its place once its context is written, and
takes a place again when a thread of it could continue; after 65,536 cycles EVWAIT and waits on a page count toward it. The image written is
that of log entry 67. -/
def Obligations.Parking : Prop :=
  ∀ (s : State) (wid : Nat) (w : Warp), s.warp? wid = some w →
    (∀ c q k b, w.residence = .resident c q k b → s.mayPark wid w = true → s.ctxEnded (s.ctxOf wid) = false → w.engineWatches = [] →
      ∃ t, exec (.park wid) s = .next t ∧ t.warp? wid = some { w with residence := .parking c q k b } ∧ KeepsRegs s t [] [] ∧
        ∀ v, v ≠ wid → t.warp? v = s.warp? v) ∧
    (∀ c q k b u v v' x, w.residence = .parking c q k b → s.ctxEnded (s.ctxOf wid) = false →
      s.storeLines wid (s.wholeImage wid w) = (.ok (), u) → u.releaseHome w.core (some wid) = (some v, v') → v.warp? wid = some x →
      ∃ t, exec (.parkComplete wid) s = .next t ∧ t.warp? wid = some { x with residence := .parked } ∧ t.mem = v.mem) ∧
    (∀ (b : Block) (q k base : Nat) (x y : Warp) (u v : State), w.residence = .parked → s.block? w.block = some b →
      (∀ l, s.launch? b.launch = some l → l.preempted = none) → s.ctxEnded (s.ctxOf wid) = false →
      w.threads.any (fun p => s.couldContinue p.2 (s.ctxOf wid)) = true → s.warpPlace w b = some (q, k, base) →
      let back := (s.modWarp wid fun x => { x with residence := .resident b.core q k base }).comeBack wid
      back.warp? wid = some x → back.restoreWhole wid x = (.ok u, v) →
      u.buffersFree wid x.quarterOf ((u.warp? wid).map (·.records) |>.getD []) = true → u.warp? wid = some y →
      ∃ t z, exec (.unpark wid) s = .next t ∧ t.warp? wid = some z ∧ z.residence = y.residence ∧ z.records = y.records) ∧
    (∀ id x, Tab.get? s.waits id = some x → ((∃ f, x.kind = .evwait f) →
        (65536 ≤ s.now - x.since → ∃ t, exec (.evwaitSpinLimit id) s = .next t ∧ Tab.get? t.waits id = some { x with parks := true } ∧ t.rest =
          { s.rest with waits := t.waits }) ∧
        (s.now - x.since < 65536 → exec (.evwaitSpinLimit id) s = .next s)) ∧
      ((∃ c p k d, x.kind = .retry (.pageFault c p k d)) ∨ (∃ c p, x.kind = .retry (.writeBlocked c p)) →
        (65536 ≤ s.now - x.since → ∃ t, exec (.faultWaitLimit id) s = .next t ∧ Tab.get? t.waits id = some { x with parks := true }) ∧
        (s.now - x.since < 65536 → exec (.faultWaitLimit id) s = .next s)))

/-- R323 to R325: a pre-emption raises PREEMPT in the resident warps of a launch, or saves those without a handler at once; when the grace
period is over, the warps that have not acknowledged are saved by force; a saved warp leaves its core, and a block's scratchpad its lines;
after a resume its warps take places again. Log entries 48, 49 and 76 read which waits end first and what a resumed warp holds. -/
def Obligations.Preemption : Prop :=
  ∀ (s : State) (id : Nat) (l : Launch), s.launch? id = some l →
    (l.preempted = none → l.status ≠ .complete → l.status ≠ .fatal → ∃ t, exec (.preemptRequest id) s = .next t ∧
      (∃ y, t.launch? id = some y ∧ y.preempted = some s.elapsed) ∧
      (l.get 375 320 = 0 → ∀ i w, s.warp? i = some w → w.resident = true → (∃ b, s.block? w.block = some b ∧ b.launch = id) →
        ∃ x, t.warp? i = some x ∧ x.graceOver = true) ∧
      (l.get 375 320 ≠ 0 → (∀ p ∈ s.warps, p.2.level ≠ 0) → ∀ i w, s.warp? i = some w → w.resident = true →
        (∃ b, s.block? w.block = some b ∧ b.launch = id) → ∃ x, t.warp? i = some x ∧ x.preempt = true)) ∧
    (l.preempted ≠ none → exec (.preemptRequest id) s = .next s) ∧
    (∃ t, exec (.launchResume id) s = .next t ∧ t.launch? id = some { l with preempted := none }) ∧
    (∀ since, l.preempted = some since →
      (s.elapsed < since + l.grace → exec (.graceExpiry id) s = .next s) ∧
      (since + l.grace ≤ s.elapsed → ∃ t, exec (.graceExpiry id) s = .next t ∧ t.rest = s.rest ∧
        (∀ i w, s.warp? i = some w → w.resident = true → w.acknowledged = false → (∃ b, s.block? w.block = some b ∧ b.launch = id) →
          t.warp? i = some { w with graceOver := true }) ∧
        ((Tab.keys s.warps).Nodup → ∀ i w, s.warp? i = some w → w.acknowledged = true → t.warp? i = some w))) ∧
    (∀ wid (w x y : Warp) (u v v' : State),
      let lvl := w.level + 1
      let t := (((s.drainSfu wid).leaveRendezvous wid).deferLoads wid lvl).suspendProducts wid lvl
      s.warp? wid = some w → w.resident = true → s.ctxEnded (s.ctxOf wid) = false → s.holdsSlot wid w = false →
      w.graceOver = true → s.drained wid w = true → t.warp? wid = some x →
      t.storeLines wid (t.wholeImage wid x ++ ([1, 2].filter fun k => decide (x.level < k)).flatMap fun k =>
        t.frameLines wid k x ⟨Code.preempt, 1, 0, 0, 0, []⟩) = (.ok (), u) →
      u.releaseHome w.core (some wid) = (some v, v') → v.warp? wid = some y → y.engineWatches = [] → v.laneCycles = [] →
      ∃ r, exec (.forcedSaveComplete wid) s = .next r ∧ r.warp? wid = some { y with residence := .saved true, graceOver := false } ∧ r.mem = v.mem) ∧
    (∀ wid (w y : Warp) (u v v' : State), s.warp? wid = some w → w.resident = true → s.ctxEnded (s.ctxOf wid) = false → s.holdsSlot wid w = false →
      w.graceOver = false → w.acknowledged = true → (∀ p ∈ w.threads, p.2.live = true → p.2.status = .running ∧ p.2.rhdr = 0) →
      s.settled wid w = true →
      s.storeLines wid (headLines w (s.saveSlot wid) 0 true true false ++ s.bufferImage w (s.saveSlot wid)) = (.ok (), u) →
      u.releaseHome w.core (some wid) = (some v, v') → v.warp? wid = some y → y.engineWatches = [] → v.laneCycles = [] →
      ∃ r, exec (.forcedSaveComplete wid) s = .next r ∧ r.warp? wid = some { y with residence := .saved false } ∧ r.mem = v.mem) ∧
    (∀ bid (b : Block) (q : Queue) (t t' u u' : State), s.block? bid = some b → b.launch = id → Tab.get? s.queues l.queue = some q →
      l.preempted ≠ none → b.saved = false → b.departed = false → s.ctxEnded l.ctx = false → s.padQuiet bid b = true →
      (∀ i ∈ b.warps, ∀ w, s.warp? i = some w → w.place? = none) →
      let base := q.blockSlotAt b.saveSlot
      readyAll (fun (v : State) (x : Nat × Nat) => v.ctxWrite l.ctx (base + 0 + 128 * x.1) 128 x.2) s
        ((List.range b.lines).zip (b.pad.map fun i => (s.scratchLine i).data.toNat)) = (some t, t') →
      readyAll (fun (v : State) (x : Nat × Nat) => v.ctxWrite l.ctx (base + 0x80000 + 128 * x.1) 128 x.2) t
        ((List.range ((b.lines + 63) / 64)).map fun i => (i, packNat 16 ((((b.pad.map s.scratchLine).drop (64 * i)).take 64).map ScratchLine.halfword))) =
        (some u, u') →
      u.block? bid = some b →
      ∃ r, exec (.blockScratchpadSave bid) s = .next r ∧ r.block? bid = some { b with saved := true } ∧
        (∀ i ∈ b.pad, r.scratchLine i = ScratchLine.fresh) ∧ ∀ i, i ∉ b.pad → r.scratchLine i = u.scratchLine i) ∧
    (∀ wid (w : Warp) (b : Block) (q k base : Nat) (u v : State), s.warp? wid = some w → s.block? w.block = some b → b.launch = id →
      w.isSaved = true → s.ctxEnded l.ctx = false → b.saved = false →
      (l.preempted ≠ none → exec (.resumeAdmission wid) s = .next s) ∧
      (l.preempted = none → s.warpPlace w b = some (q, k, base) → s.readmitSaved wid b.core q k base = (some u, v) →
        exec (.resumeAdmission wid) s = .next u))

/-- R327, R328, R330, R332: entries of the host fault queue are posted in order while there is room, each with interrupt 0; the host's consumer
index and doorbells are taken; a replay doorbell releases what waited on its record; a reply goes to its requester, and the commands of an
ended context abort. -/
def Obligations.HostAnswers : Prop :=
  ∀ (s : State),
    (∀ x rest v t t', s.host.faultEntries = x :: rest → s.faultEntryWord x = some v →
      (s.sys.fqcnt.toNat ≤ (s.host.fqNext - s.host.fqCons).toNat → exec .faultQueuePost s = .next s) ∧
      ((s.host.fqNext - s.host.fqCons).toNat < s.sys.fqcnt.toNat →
        ({ s with host := { s.host with faultEntries := rest } } : State).deviceWrite packageUse
          (s.localise (s.sys.fqbase.toNat + 32 * (s.host.fqNext.toNat % s.sys.fqcnt.toNat))) 32 v = (some t, t') →
        ∃ u, exec .faultQueuePost s = .next u ∧ u.host.fqNext = s.host.fqNext + 1 ∧ u.host.faultEntries = rest ∧
          u.host.msix = 0 :: t.host.msix ∧ u.mem = t.mem ∧ ∀ c p k d, x = .page c p k d →
            u.host.faults = t.host.faults.map fun f => if f.isFor c p k d then { f with posted := some s.host.fqNext } else f)) ∧
    (∀ v, ∃ t, exec (.faultQueueConsumerIndex v) s = .next t ∧ t.host = { s.host with fqCons := v } ∧ t.mem = s.mem ∧ t.warps = s.warps) ∧
    (∀ v, (∀ c ∈ s.ctxs, c.2.svcRung = []) →
      let serviced : PageFault → Prop := fun f => ∃ n, f.posted = some n ∧ n.toNat % s.sys.fqcnt.toNat = v.toNat % s.sys.fqcnt.toNat
      ∃ t, exec (.replayDoorbell v) s = .next t ∧ (∀ f, f ∈ t.host.faults ↔ f ∈ s.host.faults ∧ ¬ serviced f) ∧
        (∀ k, (∀ f ∈ s.host.faults, serviced f → ∀ x ∈ (t.engineQueue k).tasks, x.ctx = f.ctx → x.stalled = false)) ∧ t.mem = s.mem) ∧
    (∀ (ctx : Nat) (v : BitVec 32) (c : Ctx) (e : ServiceEntry) (x : Thread) (y : Warp) (pa word : Nat) (t u : State),
      let s1 := s.modCtx ctx fun c => { c with svcRung := c.svcRung ++ [v] }
      s.ctx? ctx = some c → c.ended = false → (∀ c ∈ s.ctxs, c.2.svcRung = []) → c.svc = [(v.toNat, e)] →
      s1.deviceAddress ctx (c.serviceAt v.toNat) .read = .ok (pa, t) → t.deviceRead ctx pa 128 = (some word, u) →
      u.ctx? ctx = some { c with svcRung := [v] } → u.warp? e.wid = some y → y.resident = true → u.thread? ⟨e.wid, e.lane⟩ = some x →
      x.status = .service v e.d → x.rhdr = 0 → e.d + 3 < 255 →
      (field word 320 320 = 0 → ∃ r, exec (.serviceDoorbell ctx v) s = .next r ∧ r.ctx? ctx = some c ∧ KeepsRegs u r [] []) ∧
      (field word 320 320 = 1 → ∃ r, exec (.serviceDoorbell ctx v) s = .next r ∧ r.ctx? ctx = some { c with svc := [] } ∧
        (∀ j, j < 4 → r.reg ⟨e.wid, e.lane⟩ (e.d + j) = BitVec.ofNat 32 (field word 511 384 / 2 ^ (32 * j))) ∧
        (∀ z, r.thread? ⟨e.wid, e.lane⟩ = some z → z.status = .running) ∧ KeepsRegs u r [⟨e.wid, e.lane⟩] [e.d, e.d + 1, e.d + 2, e.d + 3])) ∧
    (∀ ctx, (s.ctxEnded ctx = false → exec (.fatalFault ctx) s = .next s) ∧
      (∀ eng t, ctx < 4096 → s.ctxEnded ctx = true → (s.allTasks.filter fun x => x.1 % 4096 == ctx) = [(queueKey eng ctx, t)] → t.ended = true →
        t.started = true → (∀ d sc, t.cmd ≠ .coll d sc) → t.bars = [] → (∀ p ∈ s.launches, p.2.ctx ≠ ctx) →
        ∃ u, exec (.fatalFault ctx) s = .next u ∧ (∀ x ∈ (u.engineQueue (queueKey eng ctx)).tasks, x.writes = [] ∧ x.status = Status.tfault) ∧
          ∀ w ∈ t.writes, scratchBase ≤ w.va → (s.engineQueue (queueKey eng ctx)).tasks = [t] → (u.scratchLine (slotByte t.core w.va / 128)).poison = true))

/-- R340, R344 to R350, R365: freezes, capsules and what only observes: a TIMEBASE record at each wrap; the first request that reaches the
keystone begins a freeze, and later ones join it; each recorder stops once; the capsule takes the stopped recorders, and is handed out only
against the right credential and dropped only by the provider. Digests and signatures are free functions (log entry 8), and so is what a
freeze by the host leaves open (log entry 72). -/
def Obligations.FreezesAndCapsules : Prop :=
  ∀ (s : State), s.sys.rdbase = 0 →
    (∀ core n, let c := (s.cycle core).extractLsb' 30 34
      let r := s.recorder core
      s.mgmt.stage = 3 → r.stopped = false → c.toNat = r.timebase.toNat + n → 0 < n →
      ∃ t, exec (.timebaseWrap core) s = .next t ∧ (t.recorder core).timebase = c ∧ (t.recorder core).wptr = r.wptr + BitVec.ofNat 11 n ∧
        (n ≤ 2048 → ∀ i, i < n → Tab.get? (t.recorder core).ring (r.wptr + BitVec.ofNat 11 i).toNat =
          some (recordWord (BitVec.ofNat 64 ((r.timebase.toNat + i + 1) * 2 ^ 30)) 0x01 0 0 0 (r.timebase.toNat + i + 1))) ∧
        ∀ k, k ≠ core → t.recorder k = s.recorder k) ∧
    (∀ core r, s.freezeReqs.find? (fun r => r.origin == core) = some r → core ≠ hostOrigin →
      (s.freeze = none → s.capsule = none → ∃ t, exec (.freezeRequestArrival core) s = .next t ∧ t.fsn = s.fsn + 1 ∧
        t.freeze = some ⟨s.fsn + 1, core, r.ctx, r.cause, r.kind, r.cycle, r.faults, [r.id], BitVec.ofNat 11 core⟩ ∧
        ∀ x, x ∈ t.freezeReqs ↔ x ∈ s.freezeReqs ∧ x.id ≠ r.id) ∧
      (∀ z, s.freeze = some z → s.allStopped = false → ∃ t, exec (.freezeRequestArrival core) s = .next t ∧ t.fsn = s.fsn ∧
        ∃ y, t.freeze = some y ∧ y.fsn = z.fsn ∧ y.cause = z.cause ∧ y.faults = (z.faults ++ r.faults).take 255)) ∧
    (∀ core z, s.freeze = some z → s.capsule = none → s.part.cores.getLsbD core = true → (s.recorder core).stopped = false →
      ∃ t, exec (.freezeMessage core) s = .next t ∧ (t.recorder core).stopped = true ∧ (t.recorder core).frozenAt = s.cycle core ∧
        t.freeze = some z ∧ ∀ k, k ≠ core → t.recorder k = s.recorder k) ∧
    (∀ z, s.freeze = some z → s.capsule = none → s.allStopped = true → s.mgmt.resetPending = false →
      ∃ t c, exec .capsuleAssembly s = .next t ∧ t.capsule = some c ∧ c.freeze = z ∧ c.recorders = s.recorders ∧ c.missed = 0 ∧
        c.tenants = (s.ctxs.map fun x => (x.1, x.2.tenant)) ∧ t.freeze = none ∧
        ∀ core, core < 1536 → s.part.cores.getLsbD core = true → (t.recorder core).stopped = false) ∧
    (∃ t, exec .hostFreezeRequest s = .next t ∧ t.host.notReady = !(s.mgmt.stage == 3) ∧
      (s.mgmt.stage = 3 → ∃ r, t.freezeReqs = s.freezeReqs ++ [r] ∧ r.cause = 0 ∧ r.kind = 3 ∧ r.ctx = none) ∧
      (s.mgmt.stage ≠ 3 → t.freezeReqs = s.freezeReqs)) ∧
    (∀ tenant cred, ∃ t, exec (.capsuleRetrieve tenant cred) s = .next t ∧ t.capsule = s.capsule ∧
      (s.capsule = none ∨ viewAllowed tenant cred = false → t.host.view = none) ∧
      ∀ c, s.capsule = some c → viewAllowed tenant cred = true → ∃ v, t.host.view = some v ∧ v.directory.length = 1536 ∧
        ∀ core ring i w, Tab.get? v.rings core = some ring → Tab.get? ring i = some w → tenant ≠ 0 →
          ∃ r x, Tab.get? c.recorders core = some r ∧ Tab.get? r.ring i = some x ∧
            (w = x ∨ Tab.get? c.tenants (x.extractLsb' 32 12).toNat ≠ some tenant ∧ w.extractLsb' 0 32 = x.extractLsb' 0 32)) ∧
    (∀ fsn cred, ∃ t, exec (.capsuleAcknowledge fsn cred) s = .next t ∧
      (∀ c, s.capsule = some c → c.freeze.fsn = fsn → cred = .provider → t.capsule = none) ∧
      (∀ c, s.capsule = some c → c.freeze.fsn ≠ fsn ∨ cred ≠ .provider → t.capsule = some c)) ∧
    (∀ core, Tab.getD s.lcFlushed core 0 < (s.now - s.mgmt.released) / 65536 → (∀ p ∈ s.laneCycles, p.1 / 4096 ≠ core) →
      ∃ t, exec (.lcPeriodicFlush core) s = .next t ∧ Tab.get? t.lcFlushed core = some ((s.now - s.mgmt.released) / 65536) ∧ t.mem = s.mem)

/-- R386 to R388, R383, R389, R390, R393: a memory channel serves class 0 first and the others in the window of seven; a completed access brings
its line, whose place another may have to leave, or its bytes reach DRAM, and a late one is counted; the fourth alert in a row fails the
channel; what has changed of a line that leaves the home is written to its channel; a host line that a migration has read stays; a swap
exchanges the locations of two frames line by line, and no bytes or times of an address. Log entries 24 and 97 say what is free of a
channel. -/
def Obligations.MemoryChannels : Prop :=
  ∀ (s : State) (ch : Nat),
    let q := Tab.getD s.dram ch []
    let window := Tab.getD s.dramSlot ch 0
    (∀ r p, dramChoice window (dramReady q) = some (r, p) →
      (∃ t, exec (.dramCommandSlot ch) s = .next t ∧ Tab.get? t.dramSlot ch = some p ∧
        Tab.get? t.dram ch = some (q.map fun x => if x = r then { x with issued := true } else x)) ∧
      r ∈ q ∧ r.issued = false ∧
      ((∃ y ∈ dramReady q, y.cls = 0) → r.cls = 0 ∧ p = window) ∧
      (window < 7 → (∀ y ∈ dramReady q, y.cls ≠ 0) → (∃ y ∈ dramReady q, y.cls = windowClass window) →
        r.cls = windowClass window ∧ p = (window + 1) % 7)) ∧
    (∀ r, q.find? (·.issued) = some r → (∀ c ∈ s.ctxs, c.2.svcRung = []) →
      ∃ t new, exec (.dramAccessComplete ch) s = .next t ∧ Tab.getD t.dram ch [] = q.erase r ++ new ∧ new.length ≤ 1 ∧
        (∀ c, s.ctx? r.ctx = some c → ∃ d, t.ctx? r.ctx = some d ∧ (Tab.getD d.misses r.cls 0).toNat =
          if serialAfter 16 s.tenNs.toNat r.deadline.toNat then min (2 ^ 32 - 1) ((Tab.getD c.misses r.cls 0).toNat + 1)
          else (Tab.getD c.misses r.cls 0).toNat) ∧
        (r.write = none → (t.home r.line).cached = true ∧ t.mem.bytes = s.mem.bytes) ∧
        (∀ d m key, r.write = some (d, m, key) → new = [] ∧ t.mem.bytes = s.mem.bytes ∧ t.mem.homes = s.mem.homes ∧
          let old := ((Tab.get? s.mem.dram r.line).map (·.1)).getD (s.homeData r.line)
          Tab.get? t.mem.dram r.line =
            if (mergeLine old d m, key) = (s.homeData r.line, (s.home r.line).key) then none else some (mergeLine old d m, key))) ∧
    (∀ r, q.filter (·.issued) = [r] →
      (r.alerts < 4 → ∃ t, exec (.hbmAlert ch) s = .next t ∧
        Tab.getD t.dram ch [] = q.map fun x => if x = r then { x with alerts := x.alerts + 1 } else x) ∧
      (4 ≤ r.alerts → ∃ t, exec (.hbmAlert ch) s = .next t ∧ ch ∈ t.failedChannels ∧ Tab.getD t.dram ch [] = [] ∧
        ∀ x ∈ q, (x.write = none → (t.home x.line).bad = true) ∧ (x.write ≠ none → (t.home x.line).poisoned = true))) ∧
    (∀ line, isHost (line * 128) = false → isRemote (line * 128) = false → (s.home line).cached = true →
      (∃ t, exec (.homeEviction line) s = .next t ∧ (t.home line).cached = false ∧ t.mem.bytes = s.mem.bytes) ∧
      (∀ d k, Tab.get? s.mem.dram line = some (d, k) → s.channelOf line = some ch → ch ∉ s.failedChannels →
        ∃ t r, exec (.homeEviction line) s = .next t ∧ Tab.getD t.dram ch [] = q ++ [r] ∧ r.line = line ∧
          r.write = some (s.homeData line, (s.home line).dirty, (s.home line).key))) ∧
    (∀ line, isHost (line * 128) = true →
      ((∀ m ∈ s.migrations, m.holds line = false) →
        ∃ t, exec (.homeEviction line) s = .next t ∧ (t.home line).half0 = .i ∧ (t.home line).half1 = .i) ∧
      (∀ m ∈ s.migrations, m.holds line = true → exec (.homeEviction line) s = .next s)) ∧
    (∀ (id i : Nat) (w : Swap), s.swaps = [(id, w)] → w.near ≠ w.far → (∀ j, j < i → w.progress.getLsbD j = true) → i < 512 →
      w.progress.getLsbD i = false → (∀ p ∈ s.dram, ∀ r ∈ p.2, r.line ≠ w.near * 512 + i ∧ r.line ≠ w.far * 512 + i) →
      let p := w.progress ||| BitVec.twoPow 512 i
      ∃ t, exec (.swapLineStep id) s = .next t ∧ t.locationOf (w.near * 512 + i) = Tab.getD s.mem.frames w.far w.far ∧
        t.locationOf (w.far * 512 + i) = Tab.getD s.mem.frames w.near w.near ∧ t.mem.bytes = s.mem.bytes ∧ t.mem.homes = s.mem.homes ∧
        (p ≠ BitVec.allOnes 512 → t.swaps = [(id, { w with progress := p })] ∧ t.host = s.host) ∧
        (p = BitVec.allOnes 512 → t.swaps = [] ∧ ∃ n, t.host.notices = s.host.notices ++ [n] ∧ n.type = 3 ∧ n.status = 0))

/-- R391 to R393: entries of the notification queue are posted while there is room, each with interrupt 1; a migration reads the next line of
its source and writes what it has read at its destination's home, in the order of the flow; a source that cannot be read poisons what is
left and ends it. It ends as a task, with its entry. Log entries 81, 82 and 122 read the statuses. -/
def Obligations.MigrationsAndNotices : Prop :=
  ∀ (s : State),
    (∀ x rest, s.host.notices = x :: rest →
      (s.sys.hpncnt.toNat ≤ (s.host.hpnNext - s.host.hpnCons).toNat → exec .notificationPost s = .next s) ∧
      (∀ t t', (s.host.hpnNext - s.host.hpnCons).toNat < s.sys.hpncnt.toNat →
        s.deviceWrite packageUse (s.localise (s.sys.hpnbase.toNat + 32 * (s.host.hpnNext.toNat % s.sys.hpncnt.toNat))) 32 (x.entry s.host.hpnNext) = (some t, t') →
        ∃ u, exec .notificationPost s = .next u ∧ u.host.hpnNext = s.host.hpnNext + 1 ∧ u.host.notices = t.host.notices.drop 1 ∧
          u.host.msix = 1 :: t.host.msix ∧ u.mem = t.mem)) ∧
    (∀ v, ∃ t, exec (.hpnconsWrite v) s = .next t ∧ t.host = { s.host with hpnCons := v } ∧ t.mem = s.mem) ∧
    (∀ m, s.migrations = [m] →
      let eng := m.die * 64 + 48
      let ended : State → Migration → Prop := fun t m' => t.migrations = [] ∧ ∃ n, t.host.notices = s.host.notices ++ [n] ∧ n.type = 2 ∧
        n.ctx = m.ctx ∧ n.status = if m'.failed then 2 else if m'.dirtied then 1 else 0
      let written : State → State → Nat → Line → Migration → Prop := fun t u i d m' =>
        let dst := m.dst / 128 + i
        isHost (dst * 128) = false → isRemote (dst * 128) = false → u.sys.rdbase = 0 → u.migrations = [m'] → u.host.notices = s.host.notices →
          t.homeView dst (u.keyTag m.ctx) = d ∧ (t.home dst).dir = .home ∧ (t.home dst).poisoned = false ∧ (t.home dst).wts = (t.home dst).rts ∧
          maxs m.ts (t.home dst).wts = (t.home dst).wts ∧
          (let m'' := { m' with copied := Tab.del m'.copied i, time := maxs m'.time (t.home dst).wts }
           (m''.next = 512 ∧ m''.copied = [] → ended t m'') ∧ (m''.next ≠ 512 ∨ m''.copied ≠ [] → t.migrations = [m'']))
      let opened (t u : State) (i : Nat) : Prop := t.openOwned (m.dst / 128 + i) m.ctx (BitVec.allOnes 128) false none true
        (some (eng, m.seq.toNat)) (engineIndex eng) (fun _ => false) = (true, u)
      let reads := m.next < 512 ∧ m.copied.length < reorderEntries ∧ (s.orderedFlow migrationFlow = true → m.copied = [])
      (s.keyGone m.ctx = true → s.migrationRead m = (.bad, s)) ∧
      (∀ x t, s.migrationRead m = (x, t) → x = .bad ∨ x = .dropped → reads → t.migrations = [m] → t.sys.rdbase = 0 →
        t.host.notices = s.host.notices → ∃ u, exec (.migrationLineCopy m.die) s = .next u ∧
          (∀ i, i < 512 → m.next ≤ i ∨ i ∈ m.copied.map (·.1) → (u.home (m.dst / 128 + i)).poisoned = true) ∧
          ended u { m with failed := true } ∧ Tab.get? (u.engineQueue (queueKey eng m.ctx)).done m.seq.toNat = some (1, m.time)) ∧
      (∀ d w t, s.migrationRead m = (.data d w, t) → reads → t.migrations = [m] →
        let m' := { m with next := m.next + 1, copied := Tab.put m.copied m.next d }
        let t' := t.putMigration m m'
        ∃ r, exec (.migrationLineCopy m.die) s = .next r ∧ match t'.nextMigrated m' with
          | none => r = t'
          | some (i, e) => ∀ u, opened t' u i → written r u i e m') ∧
      (∀ t : State, (t.orderedFlow migrationFlow = true → t.nextMigrated m = m.copied.head?) ∧ ∀ x, t.nextMigrated m = some x → x ∈ m.copied) ∧
      (∀ i d u, ¬ reads → s.nextMigrated m = some (i, d) → opened s u i →
        ∃ r, exec (.migrationLineCopy m.die) s = .next r ∧ written r u i d m))

/-- R382, R395 to R398: answers of the host give a half its state and its bytes; snoops take a half's state down, an invalidating one under the
host write rule; host requests for device memory are served for shared frames, and counted for private ones; responses to back-
invalidations. Of a function-level reset R395 says only that it is supported: that it resets the configuration space and nothing else is the
model's choice (log entry 124). Which frames are shared is free of the configuration space (log entry 25). -/
def Obligations.HostBridge : Prop :=
  ∀ (s : State) (line : Nat) (half : Bool), line < 2 ^ 49 →
    let gone : State → BridgeReq → Prop := fun t r => r ∉ t.mem.bridge
    (∀ (r : BridgeReq) (data : BitVec 512) (excl : Bool), s.asked line half = some r → (∀ c ∈ s.ctxs, c.2.svcRung = []) →
      let arrives : State → Prop := fun t => ∀ a, t.mem.byte a =
        if line * 128 + (if half then 64 else 0) ≤ a ∧ a < line * 128 + (if half then 128 else 64) then data.extractLsb' (8 * (a % 64)) 8
        else s.mem.byte a
      (r.op = .rdShared → ∃ t, exec (.hostDataResponse line half data excl) s = .next t ∧ gone t r ∧
        (t.home line).half half = (if excl then .e else .s) ∧ arrives t) ∧
      (r.op = .rdOwn → ∃ t, exec (.hostDataResponse line half data excl) s = .next t ∧ gone t r ∧ (t.home line).half half = .m ∧ arrives t) ∧
      (r.op = .itoMWr → ∃ t, exec (.hostDataResponse line half data excl) s = .next t ∧ gone t r ∧ (t.home line).half half = .m ∧
        ∀ a, t.mem.byte a = s.mem.byte a) ∧
      (r.op = .rdCurr → ∃ t, exec (.hostDataResponse line half data excl) s = .next t ∧ gone t r ∧
        (t.home line).half half = (s.home line).half half ∧ arrives t)) ∧
    (isHost (line * 128) = true → ((s.home line).dir = .home →
        (∃ t, exec (.snpData line half) s = .next t ∧ (t.home line).half half = (if (s.home line).half half = .i then .i else .s) ∧
          t.mem.bytes = s.mem.bytes) ∧
        ((s.home line).half half = .i → exec (.snpInv line half) s = .next s) ∧
        ((s.home line).half half ≠ .i → ∃ t, exec (.snpInv line half) s = .next t ∧ (t.home line).half half = .i ∧
          (t.home line).wts = maxs (s.clock (homeClockKey (homeOf line))) ((s.home line).rts + 1) ∧
          t.migrations = s.migrations.map fun m => { m with dirtied := m.dirtied || m.holds line }) ∧
        exec (.snpCur line half) s = .next s) ∧
      (∀ q, (s.home line).dir = .engine q → exec (.snpData line half) s = .next s ∧ exec (.snpInv line half) s = .next s ∧
        exec (.snpCur line half) s = .next s)) ∧
    (s.hostServed = true → s.deviceLine line = true → (s.home line).dir = .home → s.asked line half = none →
        Tab.get? s.mem.counted line = none → (∀ x ∈ s.mem.homeReqs, x.2.line ≠ line) →
      (∀ md, ∃ t, exec (.memRd line half md) s = .next t ∧
        if s.hostShared line then
          s.lineHeld line = true → t.mem.bytes = s.mem.bytes ∧ (t.home line).half half =
            (match md with | .s => .s | .a => .a | _ => (s.home line).half half)
        else t.mem = s.mem) ∧
      (∀ (data : BitVec 512) mask md, ∃ t, exec (.memWr line half data mask md) s = .next t ∧
        if s.hostShared line then
          t.homeView line (s.keyTag packageUse) =
            mergeLine (s.homeView line (s.keyTag packageUse)) (halfLine half data) (halfBytes half mask) ∧
          (t.home line).half half = (match md with | .noMeta => (s.home line).half half | .i => .i | .s => .s | .a => .a)
        else t.mem = s.mem)) ∧
    (∀ data, ⟨line, half, .biSnpData⟩ ∈ s.mem.bridge →
      ∃ t, exec (.biRspS line half data) s = .next t ∧ gone t ⟨line, half, .biSnpData⟩ ∧ (t.home line).half half = .s ∧
        (data = none → t.mem.bytes = s.mem.bytes)) ∧
    (∀ data, ⟨line, half, .biSnpInv⟩ ∈ s.mem.bridge →
      ∃ t, exec (.biRspI line half data) s = .next t ∧ gone t ⟨line, half, .biSnpInv⟩ ∧ (t.home line).half half = .i ∧
        (data = none → t.mem.bytes = s.mem.bytes)) ∧
    (∃ t, exec .functionLevelReset s = .next t ∧ t.host = { s.host with config := [] } ∧ t.mem = s.mem ∧ t.warps = s.warps ∧ t.mgmt = s.mgmt)

/-- R253, R399 to R401: a peer's store is performed at the home and the reply to a load serves its request; chunks, in the order of their flow,
and credits are taken; the acknowledgement of a posted write ends it and raises the releasing warp's pts; ports count errors, retrain, go
down after the bound with their writes unacknowledged, and train again. Which port reaches which package is free (log entry 18); log entries
84 and 85 say the rest of what is chosen. -/
def Obligations.PortsAndPeers : Prop :=
  ∀ (s : State) (port : Nat),
    let x := s.port port
    (∀ c ∈ s.ctxs, c.2.svcRung = []) →
    (x.status ≠ 2 → ∀ msg, exec (.flitReceive port msg) s = .next s) ∧
    (x.status = 2 →
      (∀ req pkg ctx line (data : Line) (mask : LineMask) pts clk u,
        let l := localLine line
        let s1 := (s.hear l clk).hear l pts
        Tab.get? s1.mem.counted l = none → s1.keyGone ctx = false → s1.backed (l * 128) = true →
        s1.openOwned l ctx mask false none true none (remoteIndex pkg) (fun _ => false) = (true, u) →
        ∃ t, exec (.flitReceive port (.storeRequest req pkg ctx line data mask pts clk)) s = .next t ∧
          t.homeView l (u.keyTag ctx) = mergeLine (u.homeView l (u.keyTag ctx)) data mask ∧ (t.home l).wts = maxs pts ((u.home l).rts + 1)) ∧
      (∀ req (data : Line) wts rts clk (q : LineReq) (o : Op), Tab.get? s.mem.reqs req = some q → q.stage = .sent →
        Tab.get? s.mem.ops q.op = some o → q.sampled = false → q.keep = none → s.copy? (s.corePoint q.core) q.line = none →
        ∃ t y, exec (.flitReceive port (.loadReply req data wts rts clk)) s = .next t ∧ Tab.get? t.mem.reqs req = some y ∧
          y.stage = .served ∧ y.data = data ∧ y.op = q.op ∧ t.mem.bytes = s.mem.bytes) ∧
      (∀ req wts clk p w y, Tab.get? s.host.posted req = some p → p.rel = some w → p.task = none → s.warp? w = some y →
        ∃ t, exec (.flitReceive port (.storeReply req wts clk)) s = .next t ∧ Tab.get? t.host.posted req = none ∧
          t.warp? w = some { y with pts := maxs y.pts wts }) ∧
      (∀ seq ctx inst tag pkg die chunk agree clk,
        let c : RemoteChunk := ⟨ctx, 4, tag, pkg, die, inst, chunk, agree⟩
        let due := Tab.getD s.host.collDue pkg 0
        ∃ t, exec (.flitReceive port (.collChunk seq ctx inst tag pkg die chunk agree clk)) s = .next t ∧ t.mem.bytes = s.mem.bytes ∧
          (s.orderedFlow collectiveFlow = true → s.host.collHeld = [] →
            t.chunks = (if seq = due then s.chunks ++ [c] else s.chunks) ∧ t.host.collHeld = (if due < seq then [(seq, c)] else [])) ∧
          (s.orderedFlow collectiveFlow = false →
            t.chunks = s.chunks ++ (s.host.collHeld.filter fun x => x.2.pkg == pkg).map (·.2) ++ [c])) ∧
      (∀ ch n clk, s.host.outbox = [] → ∃ t, exec (.flitReceive port (.credits ch n clk)) s = .next t ∧
        Tab.getD (t.port port).credits ch 0 = Tab.getD x.credits ch 0 + n) ∧
      (∃ t, exec (.crcErrorReplay port) s = .next t ∧ (t.port port).errors = (s.elapsed :: x.errors).take 8 ∧ (t.port port).status = 2) ∧
      (port < 9 → ∃ t, exec (.portRetrain port) s = .next t ∧ (t.port port).status = 1 ∧ (t.port port).since = s.elapsed ∧
        ∀ p, p ≠ port → t.port p = s.port p)) ∧
    (x.status = 1 → s.sys.rdbase = 0 → (s.elapsed - x.since < s.retrainBound → exec (.retrainTimeout port) s = .next s) ∧
      (s.retrainBound ≤ s.elapsed - x.since → ∃ t, exec (.retrainTimeout port) s = .next t ∧ (t.port port).status = 0 ∧
        (t.port port).flight = [] ∧ ∀ id p, (∃ pkg ctx line data mask pts clk, LinkMsg.storeRequest id pkg ctx line data mask pts clk ∈ x.flight) →
          Tab.get? s.host.posted id = some p → ∃ y, Tab.get? t.host.posted id = some y ∧ y.lost = true)) ∧
    (∀ lanes w, port < 9 → x.status ≠ 2 → widthCode lanes = some w →
      ∃ t, exec (.portTrained port lanes) s = .next t ∧ (t.port port).status = 2 ∧ (t.port port).width = w ∧
        ∀ p ∈ t.host.lostPeers, p ∈ s.host.lostPeers ∧ Config.portReaches port p = false) ∧
    (∀ id p w y, Tab.get? s.host.posted id = some p → p.rel = some w → p.task = none → s.warp? w = some y →
      ∃ t v, exec (.postedWriteAck id) s = .next t ∧ Tab.get? t.host.posted id = none ∧ t.warp? w = some { y with pts := maxs y.pts v })

/-- R415 to R418, R422, R347: power, the host link and the memory bring the package through its stages; firmware is authenticated by its
signature, then its version; what each reset leaves; throttling moves LEVEL by one; a thermal alert halts the clusters. Whether a signature
is valid is free (log entry 7). -/
def Obligations.StartAndPower : Prop :=
  ∀ (s : State),
    (s.mgmt.powered = false → ∃ t, exec .powerGood s = .next t ∧ t.mgmt.powered = true ∧ t.mgmt.stage = 0 ∧ t.mem = State.reset.mem ∧
      t.warps = [] ∧ t.mgmt.rollback = s.mgmt.rollback) ∧
    (s.mgmt.powered = true → exec .powerGood s = .next s ∧ ∃ t, exec .powerLoss s = .next t ∧ t.mgmt.powered = false ∧ t.capsule = none) ∧
    (∀ lanes rate, s.mgmt.linkTrained = false → 1 ≤ lanes → lanes ≤ 16 →
      ∃ t, exec (.hostLinkTrained lanes rate) s = .next t ∧ t.mgmt.linkTrained = true ∧ t.mgmt.hostLanes = lanes ∧ t.mgmt.hostRate = rate ∧
        t.mgmt.stage = (if s.mgmt.stage = 0 then 1 else s.mgmt.stage) ∧ t.host.msix = 2 :: s.host.msix) ∧
    (s.mgmt.stage = 0 → s.mgmt.linkTrained = false →
      (s.mgmt.resetAt + 1000 * msTime ≤ s.elapsed →
        ∃ t, exec .hostLinkTimeout s = .next t ∧ t.mgmt.stage = 1 ∧ t.mgmt.failcode = 4 ∧ t.mgmt.fail = s.mgmt.fail) ∧
      (s.elapsed < s.mgmt.resetAt + 1000 * msTime → exec .hostLinkTimeout s = .next s)) ∧
    (s.mgmt.stage = 1 → ∃ t, exec .memoryTrained s = .next t ∧ t.mgmt.stage = 2) ∧
    (s.mgmt.stage = 2 → s.mgmt.fail = false → ∃ t, exec .firmwareAuthenticate s = .next t ∧
      if Config.signatureValid s.mgmt.image = false then t.mgmt.stage = 2 ∧ t.mgmt.fail = true ∧ t.mgmt.failcode = 1
      else if s.mgmt.image.version.toNat < s.mgmt.rollback.toNat then t.mgmt.stage = 2 ∧ t.mgmt.fail = true ∧ t.mgmt.failcode = 2
      else t.mgmt.stage = 3 ∧ t.mgmt.fail = false ∧ t.mgmt.fwver = s.mgmt.image.version ∧ t.mgmt.released = s.now ∧
        t.mgmt.caps = s.capList s.mgmt.image.version) ∧
    (∀ img, ∃ t, exec (.firmwareImageLoad img) s = .next t ∧ t.mgmt.staged = some img ∧ t.mgmt.stage = s.mgmt.stage) ∧
    (∀ cred, ∃ t, exec (.rollbackAdvance cred) s = .next t ∧ t.mgmt.rollback.toNat =
      if cred = .provider then max s.mgmt.rollback.toNat s.mgmt.image.version.toNat else s.mgmt.rollback.toNat) ∧
    (s.assembling = true → ∃ t, exec .warmReset s = .next t ∧ t.mgmt.resetPending = true ∧ t.mgmt.stage = s.mgmt.stage ∧ t.mem = s.mem) ∧
    (s.assembling = false → ∃ t, exec .warmReset s = .next t ∧ t.mgmt.stage = 0 ∧ t.mgmt.staged = s.mgmt.staged ∧
      t.mgmt.rollback = s.mgmt.rollback ∧ t.capsule = s.capsule ∧ t.fsn = s.fsn ∧ t.warps = [] ∧ t.ctxs = [] ∧ t.launches = [] ∧ t.queues = [] ∧
      (∀ c, (t.recorder c).ring = (s.recorder c).ring ∧ (t.recorder c).wptr = (s.recorder c).wptr) ∧
      (s.mem.frames = [] → s.swaps = [] → ∀ line, isHost (line * 128) = false → isRemote (line * 128) = false →
        Tab.get? s.mem.dram line = none → t.homeData line = s.homeData line)) ∧
    (∃ t, exec .coldReset s = .next t ∧ t.mgmt.stage = 0 ∧ t.mgmt.staged = none ∧ t.mgmt.rollback = s.mgmt.rollback ∧ t.capsule = none ∧
      t.mem = State.reset.mem ∧ t.warps = [] ∧ t.recorders = []) ∧
    (∀ pin tout : BitVec 16, let l := nextLevel s.mgmt.level pin.toNat tout.toNat s.mgmt.pwrlim.toNat
      ∃ t, exec (.throttleUpdate pin tout) s = .next t ∧ t.mgmt.pin = pin ∧ t.mgmt.tout = tout ∧
        (t.mgmt.level = s.mgmt.level ∨ t.mgmt.level = l) ∧ (s.mgmt.levelAt + msTime ≤ s.elapsed → t.mgmt.level = l) ∧
        (s.mgmt.level ≤ 8 → t.mgmt.level ≤ s.mgmt.level + 1 ∧ s.mgmt.level ≤ t.mgmt.level + 1 ∧ t.mgmt.level ≤ 8)) ∧
    (s.mgmt.halted = false →
      (750 ≤ s.mgmt.tout.toNat → ∃ t, exec .thermalAlert s = .next t ∧ t.mgmt.halted = true ∧
        (s.mgmt.stage = 3 → ∃ r, t.freezeReqs = s.freezeReqs ++ [r] ∧ r.kind = 3)) ∧
      (s.mgmt.tout.toNat < 750 → exec .thermalAlert s = .next s)) ∧
    (∀ v : BitVec 64, let w := v.extractLsb' 0 16
      (s.mgmt.stage ≠ 0 → s.mgmt.linkTrained = true → 2000 ≤ w.toNat → w.toNat ≤ 6800 →
        ∃ t, exec (.pwrlimWrite v) s = .next t ∧ t.mgmt.pwrlim = w) ∧
      (w.toNat < 2000 ∨ 6800 < w.toNat → exec (.pwrlimWrite v) s = .next s))

/-- R293, R332, R338, R363 to R365, R385, R388, R389, R393, R401, R403: what a write of each system register by privileged software does: clocks
and translations, contexts and queues, the lane-cycle block, key slots, counters, migrations and swaps; a value outside the stated limits
changes nothing. Log entries 27 and 80 say when a context begins and ends. -/
def Obligations.SystemRegisterWrites : Prop :=
  ∀ (s : State) (ctx : Nat), ctx < 4096 →
    (∀ (qd : Nat) (v : BitVec 24), qd < 4 →
      (s.quietBut none = false → exec (.hclkWrite qd v) s = .next s) ∧
      (s.quietBut none = true → ∃ t, exec (.hclkWrite qd v) s = .next t ∧ t.clock (homeClockKey qd) = v ∧
        (∀ l, homeOf l = qd → (t.home l).wts = v ∧ (t.home l).rts = v) ∧ (∀ p l, l < 2 ^ 49 → homeOf l = qd → t.copy? p l = none) ∧
        (∀ c, c < 1536 → t.clock (l1ClockKey c) = v) ∧ t.mem.bytes = s.mem.bytes)) ∧
    (∀ v : BitVec 64, ∃ t, exec (.tlbinv ctx v) s = .next t ∧
      ∀ e, e ∈ t.mem.tlb ↔ e ∈ s.mem.tlb ∧ ¬ (e.ctx = ctx ∧ e.page = v.toNat / 2 ^ e.bits)) ∧
    (∀ (v : BitVec 32) c, s.ctx? ctx = some c →
      (c.ended = true → exec (.ctxend ctx v) s = .next s) ∧
      (c.ended = false → ∃ t, exec (.ctxend ctx v) s = .next t ∧ t.ctxEnded ctx = true ∧
        ∀ id l, s.launch? id = some l → l.ctx = ctx → l.status ≠ .complete → l.status ≠ .fatal →
          ∃ y, t.launch? id = some y ∧ y.status = .fatal ∧ y.code = v.extractLsb' 0 16)) ∧
    (∀ v : BitVec 32,
      (v.toNat < 2 ^ 18 → field v.toNat 17 14 ≤ 8 → s.queueBusy = false → ∃ t, exec (.qbind v) s = .next t ∧ t.selected.bind = v ∧
        (v.getLsbD 12 = true → (t.ctx? (v.toNat % 4096)).isSome) ∧ ∀ q, q ≠ s.sys.qsel.toNat → Tab.get? t.queues q = Tab.get? s.queues q) ∧
      (2 ^ 18 ≤ v.toNat ∨ 8 < field v.toNat 17 14 ∨ s.queueBusy = true → exec (.qbind v) s = .next s)) ∧
    (∀ (v : BitVec 64) (c : Ctx) (l : List (BitVec 64 × BitVec 64)) (t : State),
      (v.toNat % 4096 ≠ 0 → exec (.lcbase ctx v) s = .next s) ∧
      (v = 0 → ∃ t d, exec (.lcbase ctx v) s = .next t ∧ t.ctx? ctx = some d ∧ d.lcbase = 0 ∧ d.lcbins = []) ∧
      (v ≠ 0 → v.toNat % 4096 = 0 → (s.withCtx ctx).readBins ctx v.toNat 8 = (some l, t) → t.ctx? ctx = some c →
        ∃ u, exec (.lcbase ctx v) s = .next u ∧ u.ctx? ctx = some { c with lcbase := v, lcbins := l } ∧ u.mem = t.mem ∧ u.laneCycles = t.laneCycles)) ∧
    (∀ core i n pa c t0 t1 t2 u, s.laneCycles = [(laneKey core ctx, [(i, n)])] → s.ctx? ctx = some c →
      s.translate core ctx (c.lcbase.toNat + counterOffset i) .write = (.ok pa, t0) → pa % 8 = 0 → isHost pa = false → isRemote pa = false →
      t0.flushLine core (pa / 128) = (some t1, t2) →
      t1.openOwned (pa / 128) ctx (byteMask (pa % 128) 8) true none true none core (fun h => h.core == core) = (true, u) →
      ∃ t, exec (.lcflush ctx) s = .next t ∧ t.laneCycles = [] ∧
        lineRead (t.homeView (pa / 128) (u.keyTag ctx)) (pa % 128) 8 =
          min (2 ^ 48 - 1) (lineRead (u.homeView (pa / 128) (u.keyTag ctx)) (pa % 128) 8 % 2 ^ 48 + n)) ∧
    (∀ (v : BitVec 32) c, s.ctx? ctx = some c →
      (v.toNat < 4 → ∃ t, exec (.lcctl ctx v) s = .next t ∧ t.ctx? ctx = some { c with lcctl := (v &&& 1) ||| (c.lcctl &&& v &&& 2) }) ∧
      (4 ≤ v.toNat → exec (.lcctl ctx v) s = .next s)) ∧
    (∀ slot, slot < 4096 →
      (s.keyFree slot = false → exec (.keyctlGenerate slot) s = .next s ∧ exec (.keyctlDestroy slot) s = .next s ∧
        exec (.keyctlPlain slot) s = .next s) ∧
      (s.keyFree slot = true →
        (∃ t, exec (.keyctlGenerate slot) s = .next t ∧ Tab.get? t.keys slot = some (.live (s.keyGens + 1)) ∧ t.keyGens = s.keyGens + 1 ∧
          t.sys.keySlot = slot ∧ t.mem = s.mem) ∧
        (∃ t, exec (.keyctlDestroy slot) s = .next t ∧ Tab.get? t.keys slot = some .destroyed ∧ t.sys.keySlot = slot ∧ t.keyGone slot = true ∧
          ∀ line d k, (s.home line).owner = some slot → Tab.get? s.mem.dram line = some (d, k) →
            t.homeData line = d ∧ (t.home line).key = k ∧ (t.home line).cached = false) ∧
        (∃ t, exec (.keyctlPlain slot) s = .next t ∧ Tab.get? t.keys slot = some .plain ∧ t.sys.keySlot = slot ∧ t.mem = s.mem))) ∧
    (∀ c, s.ctx? ctx = some c →
      (∀ n, n < 4 → ∃ t, exec (.missClear ctx n) s = .next t ∧ ∃ d, t.ctx? ctx = some d ∧ Tab.getD d.misses n 0 = 0 ∧
        ∀ k, k ≠ n → Tab.getD d.misses k 0 = Tab.getD c.misses k 0) ∧
      (∀ v : BitVec 64, ∃ t, exec (.hpsel ctx v) s = .next t ∧ t.ctx? ctx = some { c with hpsel := v.toNat / 65536 }) ∧
      (∀ v : BitVec 32, ∃ t i, exec (.hpcnt ctx v) s = .next t ∧
        counterOf t.host.counters ctx c.hpsel = some (i, ⟨ctx, c.hpsel, v.toNat % 65536⟩))) ∧
    (∀ (v : BitVec 64) (d : Nat) (t : State),
      (v.toNat % 32 ≠ 0 → exec (.migcmd v) s = .next s ∧ exec (.swapcmd v) s = .next s) ∧
      (v.toNat % 32 = 0 → v.toNat < 2 ^ 56 → s.readDescriptor v.toNat = (some d, t) →
        let a := t.localise (field d 55 0)
        let b := t.localise (field d 119 64)
        let c := field d 139 128
        (field d 255 140 = 0 → field d 127 120 = 0 → field d 63 56 = 0 → t.deviceFrame b = true → a % 65536 = 0 →
            isHost a = true ∨ t.deviceFrame a = true → (∀ l ∈ frameLinesOf b, (t.home l).dir = .home) →
          ∃ u m, exec (.migcmd v) s = .next u ∧ u.migrations = t.migrations ++ [m] ∧ m.src = a ∧ m.dst = b ∧ m.ctx = c ∧ m.die = homeQuay b ∧
            m.next = 0 ∧ m.copied = [] ∧ m.failed = false ∧ (∀ l ∈ frameLinesOf b, (u.home l).dir = .migrating) ∧
            (let k := queueKey (m.die * 64 + 48) c
             m.seq = BitVec.ofNat 32 (t.engineQueue k).nextSeq ∧ (u.engineQueue k).nextSeq = ((t.engineQueue k).nextSeq + 1) % 2 ^ 32)) ∧
        (t.deviceFrame b = false → ∃ u n, exec (.migcmd v) s = .next u ∧ u.host.notices = t.host.notices ++ [n] ∧ n.type = 2 ∧ n.status = 3 ∧
          u.migrations = t.migrations) ∧
        (d < 2 ^ 120 → field d 63 56 = 0 → t.deviceFrame a = true → t.deviceFrame b = true → homeQuay a = homeQuay b → t.inHbm a = true →
            t.inHbm b = false →
          ∃ u, exec (.swapcmd v) s = .next u ∧ Tab.get? u.swaps t.fresh = some ⟨frameOf (a / 128), frameOf (b / 128), 0⟩) ∧
        (homeQuay a ≠ homeQuay b → ∃ u n, exec (.swapcmd v) s = .next u ∧ u.host.notices = t.host.notices ++ [n] ∧ n.type = 3 ∧ n.status = 3 ∧
          u.swaps = t.swaps))) ∧
    (∀ v : BitVec 32, (v.toNat < 512 → s.ctxs = [] → ∃ t, exec (.causkid v) s = .next t ∧ t.sys.causkid = v) ∧
      (512 ≤ v.toNat ∨ s.ctxs ≠ [] → exec (.causkid v) s = .next s)) ∧
    (∀ (sel : BitVec 16) (v : BitVec 64),
      let w := v.toNat % 2 ^ 32
      let n := if sysWide sel.toNat then v.toNat else w
      let power : Nat → Nat → Prop := fun lo hi => ∃ k, w = 2 ^ k ∧ lo ≤ w ∧ w ≤ hi
      (sysWritable sel.toNat = false → exec (.sysregWrite ctx sel v) s = .next s) ∧
      ((sel.toNat ∈ [0x08, 0x0C, 0x10, 0x12, 0x13, 0x15, 0x16, 0x31] ∨
          (sel = 0x09 ∧ v.toNat % 131072 = 0) ∨ (sel = 0x0A ∧ w < 2) ∨ (sel = 0x0D ∧ power 32 4096) ∨ (sel = 0x11 ∧ power 64 65536) ∨
          (sel = 0x14 ∧ w < 256) ∨ (sel = 0x19 ∧ v.toNat % 4096 = 0 ∧ s.queueBusy = false) ∨
          (sel = 0x1A ∧ v.toNat % 256 = 0 ∧ s.queueBusy = false) ∨ (sel = 0x20 ∧ v.toNat % 4096 = 0) ∨ (sel = 0x21 ∧ power 256 65536) ∨
          (sel = 0x22 ∧ 0 < w ∧ w < 65536) ∨ (sel = 0x29 ∧ w < 2 ^ 20 ∧ w % 4 ≠ 0 ∧ w / 4 % 4 ≠ 0) ∨ (sel = 0x30 ∧ w < 65536) ∨
          (sel = 0x32 ∧ power 64 65536)) →
        ∃ t, exec (.sysregWrite ctx sel v) s = .next t ∧ t.sysRead ctx sel.toNat = n ∧ t.mem = s.mem ∧ t.warps = s.warps) ∧
      ((sel = 0x09 ∧ v.toNat % 131072 ≠ 0) ∨ (sel = 0x0A ∧ 2 ≤ w) ∨ (sel = 0x0D ∧ ¬ power 32 4096) ∨ (sel = 0x11 ∧ ¬ power 64 65536) ∨
          (sel = 0x14 ∧ 256 ≤ w) ∨ (sel = 0x19 ∧ s.queueBusy = true) ∨ (sel = 0x20 ∧ v.toNat % 4096 ≠ 0) ∨ (sel = 0x21 ∧ ¬ power 256 65536) ∨
          (sel = 0x22 ∧ (w = 0 ∨ 65536 ≤ w)) ∨ (sel = 0x29 ∧ (2 ^ 20 ≤ w ∨ w % 4 = 0 ∨ w / 4 % 4 = 0)) ∨ (sel = 0x30 ∧ 65536 ≤ w) ∨
          (sel = 0x32 ∧ ¬ power 64 65536) →
        exec (.sysregWrite ctx sel v) s = .next s))

/-! ### The machine as a whole -/

/-- R7, R27, R59: code is read halfword by halfword at the PC; when the bits there decode to an instruction, a step is that instruction's
meaning, after which the quarter's slot, where it came free, is filled, and the turn and the time move on; bits that are no instruction
raise ILLEGAL at the PC, and a fetch that faults its fault; an event that can come about is its meaning, and time alone goes on while the
clusters are halted. With the time go only what waits in the flows of R243, the host's writes that wait, and since when threads are ready.
Log entry 93 says which events can come about. -/
def Obligations.StepRunsDecoded : Prop :=
  ∀ (s : State), s.mgmt.powered = true →
    (∀ core ctx va pa, s.fetchAddress core ctx va = .ok pa → (s.home (pa / 128)).key = s.keyTag ctx → pa % 2 = 0 →
      s.keyGone ctx = false → s.fetchHalf core ctx va = .word (BitVec.ofNat 64 (s.mem.read pa 2))) ∧
    (∀ (e : Env) (w : BitVec 64), s.event = none → s.mgmt.halted = false → s.env? { len := 0, guard := 15, sense := 0 } = some e →
      s.fetchInstr e.core (s.ctxOfGroup e.group) e.pc = .word w →
      (∀ i n, decode w = .ok (i, n) → step s = s.after (s.picks (exec i (s.fetched n))) ∧ (s.fetched n).warps = s.warps ∧ (s.fetched n).mem = s.mem) ∧
      (∀ x, decode w = .error x →
        step s = .next (s.advance ((s.raiseAt e 1 (e.members.map fun m => (m, ⟨Code.illegal, BitVec.ofNat 64 e.pc⟩)) 0).arbitrate s.focus)))) ∧
    (∀ (e : Env) (c : BitVec 16), s.event = none → s.mgmt.halted = false → s.env? { len := 0, guard := 15, sense := 0 } = some e →
      s.fetchInstr e.core (s.ctxOfGroup e.group) e.pc = .fault c →
      step s = .next (s.advance ((s.raiseAt e 1 (e.members.map fun m => (m, ⟨c, BitVec.ofNat 64 e.pc⟩)) 0).arbitrate s.focus))) ∧
    (s.event = none → s.mgmt.halted = false → s.env? { len := 0, guard := 15, sense := 0 } = none →
      step s = .next (s.advance (s.idleCycle.arbitrate s.focus))) ∧
    (∀ t, s.picks (.next t) = .next (t.arbitrate s.focus)) ∧
    (∀ i, s.event = some i → encode i = none → comesAbout s i = true → step s = s.after (exec i s)) ∧
    (∀ i, s.event = some i → (encode i ≠ none ∨ comesAbout s i = false) → step s = .next (s.advance s)) ∧
    (s.event = none → s.mgmt.halted = true → step s = .next (s.advance s)) ∧
    (∀ t, s.after (.next t) = .next (s.advance t) ∧ (s.advance t).turn = s.turn + 1 ∧ s.now < (s.advance t).now ∧
      s.elapsed + cycleTime ≤ (s.advance t).elapsed ∧
      (t.flows = [] → t.host.writes = [] → (s.advance t).mem = t.mem ∧ (s.advance t).host = t.host ∧ (s.advance t).ctxs = t.ctxs ∧
        (s.advance t).quarters = t.quarters ∧ (s.advance t).launches = t.launches ∧
        let timeless : Warp → Warp := fun w => { w with threads := w.threads.map fun (k, x) => (k, { x with readyAt := none }) }
        ∀ id, ((s.advance t).warp? id).map timeless = (t.warp? id).map timeless))

/-- R63 to R67 and the entries' worked encodings: instructions of every family decode from the words that the spec writes out. -/
def Obligations.DecodeWords : Prop :=
  decode 0x0440000403097883 = .ok (.iaddW ⟨15, 0, 9, 3, 4, 0, 0, 1, 0, 0, 1, 0⟩, 8) ∧
  decode 0x0508886D = .ok (.icmpp false 5 4 0x22, 4) ∧
  decode 0x7FFA1461 = .ok (.movi 0x3FFD 5, 4) ∧
  decode 0x7FFF8005 = .ok (.bra 0x1FFFE0, 4) ∧
  decode 0x00181819 = .ok (.loop 3 0 6, 4) ∧
  decode 0x0B00182D = .ok (.sval 0x0B 6, 4) ∧
  decode 0x9278 = .ok (.fmul16 18 19, 2) ∧
  decode 0x8508859D = .ok (.fcmpp true 5 4 0x21, 4) ∧
  decode 0x080B00000203795F = .ok (.f2fW ⟨15, 0, 3, 2, 0, 0, 0xB, 0, 0, 0, 2, 0⟩, 8) ∧
  decode 0x800E3221 = .ok (.rsqrt true 7 12, 4) ∧
  decode 0x89102A41 = .ok (.shfl true 9 8 10, 4) ∧
  decode 0x8000140908827A43 = .ok (.shflW ⟨15, 0, 130, 8, 9, 20, 0, 0, 0, 0, 0, 2⟩, 8) ∧
  decode 0x0100000014007C27 = .ok (.obres ⟨15, 0, 0, 20, 0, 0, 0, 0, 1⟩, 8) ∧
  decode 0x0021820100887C03 = .ok (.mma ⟨15, 0, 136, 0, 1, 0x82, 0x21, 0, 0, 0, 0, 0⟩, 8) ∧
  decode 0x01D4020006147A83 = .ok (.ldW ⟨15, 0, 20, 6, 0, 2, 5, 1, 3, 0⟩, 8) ∧
  decode 0x020A268D = .ok (.lds false 2 5 9, 4) ∧
  decode 0x0D000008040C7C43 = .ok (.atom ⟨15, 0, 12, 4, 8, 0, 0, 0, 2, 3⟩, 8) ∧
  decode 0x0C0C000000007C4F = .ok (.fence ⟨15, 0, 0, 0, 0, 0, 3, 0, 0, 3⟩, 8) ∧
  decode 0x010C140006007C87 = .ok (.cpt ⟨15, 0, 0, 6, 0, 20, 0, 3, 1⟩, 8) ∧
  decode 0x0000000004097CA7 = .ok (.barv ⟨15, 0, 9, 4, 0, 0, 0, 0, 0⟩, 8) ∧
  decode 0x01000000040A7CC3 = .ok (.launch ⟨15, 0, 10, 4, 0, 0, 0, 0, 1⟩, 8) ∧
  decode 0x8310103D = .ok (.trapSvc 3 8 4, 4) ∧
  decode 0x0009000000047D1B = .ok (.srd ⟨15, 0, 4, 0, 0, 0, 9⟩, 8) ∧
  decode 0x0109000000007D23 = .ok (.freeze ⟨15, 0, 0, 0, 0, 0, 0x109⟩, 8)

/-- R59, R63 to R67, R76, R77, R79: the decoder reads back every well-formed instruction from its encoding, and whatever it reads is well formed
and encodes as the bits that it was read from. -/
def Obligations.DecodeEncode : Prop :=
  (∀ (i : Instr) (c : Code), i.wf = true → encode i = some c → decode c.bits = .ok (i, c.len)) ∧
  (∀ (w : BitVec 64) (i : Instr) (n : Nat), decode w = .ok (i, n) →
    i.wf = true ∧ encode i = some ⟨BitVec.ofNat 64 (w.toNat % 2 ^ (8 * n)), n⟩)

/-- No instruction and no event stops the machine, on any state; a step of a powered machine goes on, and one without power waits for power
alone. That a machine without power does not step is log entry 96. -/
def Obligations.MachineGoesOn : Prop :=
  (∀ (i : Instr) (s : State), ∃ t, exec i s = .next t) ∧
  (∀ s : State, s.mgmt.powered = true → s.goesOn) ∧
  (∀ s : State, s.mgmt.powered = false → (s.event = some .powerGood ↔ s.goesOn) ∧ (s.event ≠ some .powerGood → step s = .fault .noPower))

/-- R36, R422, R423: time goes on with every step; a cycle takes the real time that LEVEL gives it, and never less than at level 0. How many
cycles a step takes is free (log entry 2), and log entry 36 reads how they become real time. -/
def Obligations.StepKeepsTime : Prop :=
  ∀ s t : State, s.timely → step s = .next t → t.timely ∧ t.turn = s.turn + 1 ∧ s.now < t.now ∧
    (t.elapsed - s.elapsed) * (16 - min s.mgmt.level 8) = (t.now - s.now) * cycleTime * 16

/-- R2, R7, R231: every write of memory bytes keeps their canonical form, and a byte read after a write is the byte written, every other one as
before. -/
def Obligations.MemoryForm : Prop :=
  (∀ (m : Memory) (a n : Nat) (b : Byte) (l : List Byte),
    (m.setByte a b).byte n = (if n = a then b else m.byte n) ∧
    (∀ i, (m.write a l).byte i = if a ≤ i ∧ i < a + l.length then l.getD (i - a) 0 else m.byte i) ∧
    (∀ mask i, (m.writeMasked a mask l).byte i = if a ≤ i ∧ i < a + l.length ∧ mask.testBit (i - a) = true then l.getD (i - a) 0 else m.byte i) ∧
    (m.wf = true → (m.setByte a b).wf = true ∧ (m.write a l).wf = true ∧ ∀ mask, (m.writeMasked a mask l).wf = true) ∧
    (m.wf = true → ∀ k : Memory, k.wf = true → (∀ i, m.byte i = k.byte i) → m.bytes = k.bytes)) ∧
  (∀ (s : State) (line tag ctx : Nat) (data : Line) (mask : LineMask),
    (s.mem.wf = true → (s.writeHome line tag ctx data mask).mem.wf = true ∧ (s.ruleWrite line tag ctx data mask).mem.wf = true ∧
      ∀ c rel, (s.writeBackHome line c rel).2.mem.wf = true) ∧
    ((s.home line).key = tag ∨ isHost (line * 128) = true → ∀ a, (s.writeHome line tag ctx data mask).mem.byte a =
      if a / 128 = line ∧ mask.getLsbD (a % 128) = true then data.extractLsb' (8 * (a % 128)) 8 else s.mem.byte a) ∧
    (s.writeHome line tag ctx data mask).homeView line tag = mergeLine (s.homeView line tag) data mask)

/-- R8, R36, R232, R243, R338, R403, R415, R416, R422: the state right after a cold reset: stage 0 and nothing failed, no thread, launch or
context, memory in its canonical form with nothing listed, home lines of class 1 at their home, key slots EMPTY. Log entries 7, 9, 10, 11,
30, 31 and 90 choose what the spec leaves open of it: register values without one, unwritten bytes, first times, untrained ports, empty key
slots, the part and its rollback counter. -/
def Obligations.ResetState : Prop :=
  let s := State.reset
  s.mgmt.stage = 0 ∧ s.mgmt.fail = false ∧ s.mgmt.failcode = 0 ∧ s.mgmt.fwver = 0 ∧ s.mgmt.caps = 0 ∧ s.mgmt.level = 0 ∧
  s.mgmt.pwrlim = 6800 ∧ s.warps = [] ∧ s.launches = [] ∧ s.ctxs = [] ∧ s.waits = [] ∧ s.capsule = none ∧ s.recorders = [] ∧
  s.mem.bytes = [] ∧ s.flows = [] ∧ s.host.writes = [] ∧ s.mem.wf = true ∧ s.timely ∧
  (∀ line, (s.home line).cls = 1 ∧ (s.home line).dir = .home ∧ (s.home line).half0 = .i ∧ (s.home line).half1 = .i ∧ s.locationOf line = line / 512) ∧
  (∀ k, Tab.get? s.keys k = none) ∧ (∀ p, (s.port p).status = 0) ∧ ∀ q, (s.quarter q).slot = none
end

