-- ==== Sys2Proof/Laws/State.lean ====
section
/-! SUPPORT. What each update of the state leaves in each field. -/

namespace Sys2Proof.Machine

open Sys2Proof

variable (s : State)

/-! ### modWarp -/

@[simp] theorem State.modWarp_turn (w : Nat) (f : Warp → Warp) : (s.modWarp w f).turn = s.turn := rfl
@[simp] theorem State.modWarp_now (w : Nat) (f : Warp → Warp) : (s.modWarp w f).now = s.now := rfl
@[simp] theorem State.modWarp_elapsed (w : Nat) (f : Warp → Warp) : (s.modWarp w f).elapsed = s.elapsed := rfl
@[simp] theorem State.modWarp_focus (w : Nat) (f : Warp → Warp) : (s.modWarp w f).focus = s.focus := rfl
@[simp] theorem State.modWarp_event (w : Nat) (f : Warp → Warp) : (s.modWarp w f).event = s.event := rfl
@[simp] theorem State.modWarp_part (w : Nat) (f : Warp → Warp) : (s.modWarp w f).part = s.part := rfl
@[simp] theorem State.modWarp_mgmt (w : Nat) (f : Warp → Warp) : (s.modWarp w f).mgmt = s.mgmt := rfl
@[simp] theorem State.modWarp_sys (w : Nat) (f : Warp → Warp) : (s.modWarp w f).sys = s.sys := rfl
@[simp] theorem State.modWarp_mem (w : Nat) (f : Warp → Warp) : (s.modWarp w f).mem = s.mem := rfl
@[simp] theorem State.modWarp_warps (w : Nat) (f : Warp → Warp) : (s.modWarp w f).warps = Tab.modify s.warps w f := rfl
@[simp] theorem State.modWarp_blocks (w : Nat) (f : Warp → Warp) : (s.modWarp w f).blocks = s.blocks := rfl
@[simp] theorem State.modWarp_launches (w : Nat) (f : Warp → Warp) : (s.modWarp w f).launches = s.launches := rfl
@[simp] theorem State.modWarp_queues (w : Nat) (f : Warp → Warp) : (s.modWarp w f).queues = s.queues := rfl
@[simp] theorem State.modWarp_ctxs (w : Nat) (f : Warp → Warp) : (s.modWarp w f).ctxs = s.ctxs := rfl
@[simp] theorem State.modWarp_quarters (w : Nat) (f : Warp → Warp) : (s.modWarp w f).quarters = s.quarters := rfl
@[simp] theorem State.modWarp_waits (w : Nat) (f : Warp → Warp) : (s.modWarp w f).waits = s.waits := rfl
@[simp] theorem State.modWarp_engines (w : Nat) (f : Warp → Warp) : (s.modWarp w f).engines = s.engines := rfl
@[simp] theorem State.modWarp_chunks (w : Nat) (f : Warp → Warp) : (s.modWarp w f).chunks = s.chunks := rfl
@[simp] theorem State.modWarp_arrivals (w : Nat) (f : Warp → Warp) : (s.modWarp w f).arrivals = s.arrivals := rfl
@[simp] theorem State.modWarp_keystones (w : Nat) (f : Warp → Warp) : (s.modWarp w f).keystones = s.keystones := rfl
@[simp] theorem State.modWarp_objTimes (w : Nat) (f : Warp → Warp) : (s.modWarp w f).objTimes = s.objTimes := rfl
@[simp] theorem State.modWarp_recorders (w : Nat) (f : Warp → Warp) : (s.modWarp w f).recorders = s.recorders := rfl
@[simp] theorem State.modWarp_freeze (w : Nat) (f : Warp → Warp) : (s.modWarp w f).freeze = s.freeze := rfl
@[simp] theorem State.modWarp_freezeReqs (w : Nat) (f : Warp → Warp) : (s.modWarp w f).freezeReqs = s.freezeReqs := rfl
@[simp] theorem State.modWarp_fsn (w : Nat) (f : Warp → Warp) : (s.modWarp w f).fsn = s.fsn := rfl
@[simp] theorem State.modWarp_capsule (w : Nat) (f : Warp → Warp) : (s.modWarp w f).capsule = s.capsule := rfl
@[simp] theorem State.modWarp_laneCycles (w : Nat) (f : Warp → Warp) : (s.modWarp w f).laneCycles = s.laneCycles := rfl
@[simp] theorem State.modWarp_host (w : Nat) (f : Warp → Warp) : (s.modWarp w f).host = s.host := rfl
@[simp] theorem State.modWarp_swaps (w : Nat) (f : Warp → Warp) : (s.modWarp w f).swaps = s.swaps := rfl
@[simp] theorem State.modWarp_migrations (w : Nat) (f : Warp → Warp) : (s.modWarp w f).migrations = s.migrations := rfl
@[simp] theorem State.modWarp_keys (w : Nat) (f : Warp → Warp) : (s.modWarp w f).keys = s.keys := rfl
@[simp] theorem State.modWarp_keyGens (w : Nat) (f : Warp → Warp) : (s.modWarp w f).keyGens = s.keyGens := rfl
@[simp] theorem State.modWarp_dram (w : Nat) (f : Warp → Warp) : (s.modWarp w f).dram = s.dram := rfl
@[simp] theorem State.modWarp_flows (w : Nat) (f : Warp → Warp) : (s.modWarp w f).flows = s.flows := rfl
@[simp] theorem State.modWarp_dramSlot (w : Nat) (f : Warp → Warp) : (s.modWarp w f).dramSlot = s.dramSlot := rfl
@[simp] theorem State.modWarp_failedChannels (w : Nat) (f : Warp → Warp) : (s.modWarp w f).failedChannels = s.failedChannels := rfl
@[simp] theorem State.modWarp_ticks (w : Nat) (f : Warp → Warp) : (s.modWarp w f).ticks = s.ticks := rfl
@[simp] theorem State.modWarp_lcFlushed (w : Nat) (f : Warp → Warp) : (s.modWarp w f).lcFlushed = s.lcFlushed := rfl
@[simp] theorem State.modWarp_lastQueue (w : Nat) (f : Warp → Warp) : (s.modWarp w f).lastQueue = s.lastQueue := rfl
@[simp] theorem State.modWarp_fresh (w : Nat) (f : Warp → Warp) : (s.modWarp w f).fresh = s.fresh := rfl

/-! ### putWarp -/

@[simp] theorem State.putWarp_turn (w : Nat) (x : Warp) : (s.putWarp w x).turn = s.turn := rfl
@[simp] theorem State.putWarp_now (w : Nat) (x : Warp) : (s.putWarp w x).now = s.now := rfl
@[simp] theorem State.putWarp_elapsed (w : Nat) (x : Warp) : (s.putWarp w x).elapsed = s.elapsed := rfl
@[simp] theorem State.putWarp_focus (w : Nat) (x : Warp) : (s.putWarp w x).focus = s.focus := rfl
@[simp] theorem State.putWarp_event (w : Nat) (x : Warp) : (s.putWarp w x).event = s.event := rfl
@[simp] theorem State.putWarp_part (w : Nat) (x : Warp) : (s.putWarp w x).part = s.part := rfl
@[simp] theorem State.putWarp_mgmt (w : Nat) (x : Warp) : (s.putWarp w x).mgmt = s.mgmt := rfl
@[simp] theorem State.putWarp_sys (w : Nat) (x : Warp) : (s.putWarp w x).sys = s.sys := rfl
@[simp] theorem State.putWarp_mem (w : Nat) (x : Warp) : (s.putWarp w x).mem = s.mem := rfl
@[simp] theorem State.putWarp_warps (w : Nat) (x : Warp) : (s.putWarp w x).warps = Tab.put s.warps w x := rfl
@[simp] theorem State.putWarp_blocks (w : Nat) (x : Warp) : (s.putWarp w x).blocks = s.blocks := rfl
@[simp] theorem State.putWarp_launches (w : Nat) (x : Warp) : (s.putWarp w x).launches = s.launches := rfl
@[simp] theorem State.putWarp_queues (w : Nat) (x : Warp) : (s.putWarp w x).queues = s.queues := rfl
@[simp] theorem State.putWarp_ctxs (w : Nat) (x : Warp) : (s.putWarp w x).ctxs = s.ctxs := rfl
@[simp] theorem State.putWarp_quarters (w : Nat) (x : Warp) : (s.putWarp w x).quarters = s.quarters := rfl
@[simp] theorem State.putWarp_waits (w : Nat) (x : Warp) : (s.putWarp w x).waits = s.waits := rfl
@[simp] theorem State.putWarp_engines (w : Nat) (x : Warp) : (s.putWarp w x).engines = s.engines := rfl
@[simp] theorem State.putWarp_chunks (w : Nat) (x : Warp) : (s.putWarp w x).chunks = s.chunks := rfl
@[simp] theorem State.putWarp_arrivals (w : Nat) (x : Warp) : (s.putWarp w x).arrivals = s.arrivals := rfl
@[simp] theorem State.putWarp_keystones (w : Nat) (x : Warp) : (s.putWarp w x).keystones = s.keystones := rfl
@[simp] theorem State.putWarp_objTimes (w : Nat) (x : Warp) : (s.putWarp w x).objTimes = s.objTimes := rfl
@[simp] theorem State.putWarp_recorders (w : Nat) (x : Warp) : (s.putWarp w x).recorders = s.recorders := rfl
@[simp] theorem State.putWarp_freeze (w : Nat) (x : Warp) : (s.putWarp w x).freeze = s.freeze := rfl
@[simp] theorem State.putWarp_freezeReqs (w : Nat) (x : Warp) : (s.putWarp w x).freezeReqs = s.freezeReqs := rfl
@[simp] theorem State.putWarp_fsn (w : Nat) (x : Warp) : (s.putWarp w x).fsn = s.fsn := rfl
@[simp] theorem State.putWarp_capsule (w : Nat) (x : Warp) : (s.putWarp w x).capsule = s.capsule := rfl
@[simp] theorem State.putWarp_laneCycles (w : Nat) (x : Warp) : (s.putWarp w x).laneCycles = s.laneCycles := rfl
@[simp] theorem State.putWarp_host (w : Nat) (x : Warp) : (s.putWarp w x).host = s.host := rfl
@[simp] theorem State.putWarp_swaps (w : Nat) (x : Warp) : (s.putWarp w x).swaps = s.swaps := rfl
@[simp] theorem State.putWarp_migrations (w : Nat) (x : Warp) : (s.putWarp w x).migrations = s.migrations := rfl
@[simp] theorem State.putWarp_keys (w : Nat) (x : Warp) : (s.putWarp w x).keys = s.keys := rfl
@[simp] theorem State.putWarp_keyGens (w : Nat) (x : Warp) : (s.putWarp w x).keyGens = s.keyGens := rfl
@[simp] theorem State.putWarp_dram (w : Nat) (x : Warp) : (s.putWarp w x).dram = s.dram := rfl
@[simp] theorem State.putWarp_flows (w : Nat) (x : Warp) : (s.putWarp w x).flows = s.flows := rfl
@[simp] theorem State.putWarp_dramSlot (w : Nat) (x : Warp) : (s.putWarp w x).dramSlot = s.dramSlot := rfl
@[simp] theorem State.putWarp_failedChannels (w : Nat) (x : Warp) : (s.putWarp w x).failedChannels = s.failedChannels := rfl
@[simp] theorem State.putWarp_ticks (w : Nat) (x : Warp) : (s.putWarp w x).ticks = s.ticks := rfl
@[simp] theorem State.putWarp_lcFlushed (w : Nat) (x : Warp) : (s.putWarp w x).lcFlushed = s.lcFlushed := rfl
@[simp] theorem State.putWarp_lastQueue (w : Nat) (x : Warp) : (s.putWarp w x).lastQueue = s.lastQueue := rfl
@[simp] theorem State.putWarp_fresh (w : Nat) (x : Warp) : (s.putWarp w x).fresh = s.fresh := rfl

/-! ### modThread -/

@[simp] theorem State.modThread_turn (m : Member) (f : Thread → Thread) : (s.modThread m f).turn = s.turn := rfl
@[simp] theorem State.modThread_now (m : Member) (f : Thread → Thread) : (s.modThread m f).now = s.now := rfl
@[simp] theorem State.modThread_elapsed (m : Member) (f : Thread → Thread) : (s.modThread m f).elapsed = s.elapsed := rfl
@[simp] theorem State.modThread_focus (m : Member) (f : Thread → Thread) : (s.modThread m f).focus = s.focus := rfl
@[simp] theorem State.modThread_event (m : Member) (f : Thread → Thread) : (s.modThread m f).event = s.event := rfl
@[simp] theorem State.modThread_part (m : Member) (f : Thread → Thread) : (s.modThread m f).part = s.part := rfl
@[simp] theorem State.modThread_mgmt (m : Member) (f : Thread → Thread) : (s.modThread m f).mgmt = s.mgmt := rfl
@[simp] theorem State.modThread_sys (m : Member) (f : Thread → Thread) : (s.modThread m f).sys = s.sys := rfl
@[simp] theorem State.modThread_mem (m : Member) (f : Thread → Thread) : (s.modThread m f).mem = s.mem := rfl
@[simp] theorem State.modThread_warps (m : Member) (f : Thread → Thread) : (s.modThread m f).warps = Tab.modify s.warps m.wid (·.modThread m.lane f) := rfl
@[simp] theorem State.modThread_blocks (m : Member) (f : Thread → Thread) : (s.modThread m f).blocks = s.blocks := rfl
@[simp] theorem State.modThread_launches (m : Member) (f : Thread → Thread) : (s.modThread m f).launches = s.launches := rfl
@[simp] theorem State.modThread_queues (m : Member) (f : Thread → Thread) : (s.modThread m f).queues = s.queues := rfl
@[simp] theorem State.modThread_ctxs (m : Member) (f : Thread → Thread) : (s.modThread m f).ctxs = s.ctxs := rfl
@[simp] theorem State.modThread_quarters (m : Member) (f : Thread → Thread) : (s.modThread m f).quarters = s.quarters := rfl
@[simp] theorem State.modThread_waits (m : Member) (f : Thread → Thread) : (s.modThread m f).waits = s.waits := rfl
@[simp] theorem State.modThread_engines (m : Member) (f : Thread → Thread) : (s.modThread m f).engines = s.engines := rfl
@[simp] theorem State.modThread_chunks (m : Member) (f : Thread → Thread) : (s.modThread m f).chunks = s.chunks := rfl
@[simp] theorem State.modThread_arrivals (m : Member) (f : Thread → Thread) : (s.modThread m f).arrivals = s.arrivals := rfl
@[simp] theorem State.modThread_keystones (m : Member) (f : Thread → Thread) : (s.modThread m f).keystones = s.keystones := rfl
@[simp] theorem State.modThread_objTimes (m : Member) (f : Thread → Thread) : (s.modThread m f).objTimes = s.objTimes := rfl
@[simp] theorem State.modThread_recorders (m : Member) (f : Thread → Thread) : (s.modThread m f).recorders = s.recorders := rfl
@[simp] theorem State.modThread_freeze (m : Member) (f : Thread → Thread) : (s.modThread m f).freeze = s.freeze := rfl
@[simp] theorem State.modThread_freezeReqs (m : Member) (f : Thread → Thread) : (s.modThread m f).freezeReqs = s.freezeReqs := rfl
@[simp] theorem State.modThread_fsn (m : Member) (f : Thread → Thread) : (s.modThread m f).fsn = s.fsn := rfl
@[simp] theorem State.modThread_capsule (m : Member) (f : Thread → Thread) : (s.modThread m f).capsule = s.capsule := rfl
@[simp] theorem State.modThread_laneCycles (m : Member) (f : Thread → Thread) : (s.modThread m f).laneCycles = s.laneCycles := rfl
@[simp] theorem State.modThread_host (m : Member) (f : Thread → Thread) : (s.modThread m f).host = s.host := rfl
@[simp] theorem State.modThread_swaps (m : Member) (f : Thread → Thread) : (s.modThread m f).swaps = s.swaps := rfl
@[simp] theorem State.modThread_migrations (m : Member) (f : Thread → Thread) : (s.modThread m f).migrations = s.migrations := rfl
@[simp] theorem State.modThread_keys (m : Member) (f : Thread → Thread) : (s.modThread m f).keys = s.keys := rfl
@[simp] theorem State.modThread_keyGens (m : Member) (f : Thread → Thread) : (s.modThread m f).keyGens = s.keyGens := rfl
@[simp] theorem State.modThread_dram (m : Member) (f : Thread → Thread) : (s.modThread m f).dram = s.dram := rfl
@[simp] theorem State.modThread_flows (m : Member) (f : Thread → Thread) : (s.modThread m f).flows = s.flows := rfl
@[simp] theorem State.modThread_dramSlot (m : Member) (f : Thread → Thread) : (s.modThread m f).dramSlot = s.dramSlot := rfl
@[simp] theorem State.modThread_failedChannels (m : Member) (f : Thread → Thread) : (s.modThread m f).failedChannels = s.failedChannels := rfl
@[simp] theorem State.modThread_ticks (m : Member) (f : Thread → Thread) : (s.modThread m f).ticks = s.ticks := rfl
@[simp] theorem State.modThread_lcFlushed (m : Member) (f : Thread → Thread) : (s.modThread m f).lcFlushed = s.lcFlushed := rfl
@[simp] theorem State.modThread_lastQueue (m : Member) (f : Thread → Thread) : (s.modThread m f).lastQueue = s.lastQueue := rfl
@[simp] theorem State.modThread_fresh (m : Member) (f : Thread → Thread) : (s.modThread m f).fresh = s.fresh := rfl

/-! ### setReg -/

@[simp] theorem State.setReg_turn (m : Member) (r : Nat) (v : Word) : (s.setReg m r v).turn = s.turn := rfl
@[simp] theorem State.setReg_now (m : Member) (r : Nat) (v : Word) : (s.setReg m r v).now = s.now := rfl
@[simp] theorem State.setReg_elapsed (m : Member) (r : Nat) (v : Word) : (s.setReg m r v).elapsed = s.elapsed := rfl
@[simp] theorem State.setReg_focus (m : Member) (r : Nat) (v : Word) : (s.setReg m r v).focus = s.focus := rfl
@[simp] theorem State.setReg_event (m : Member) (r : Nat) (v : Word) : (s.setReg m r v).event = s.event := rfl
@[simp] theorem State.setReg_part (m : Member) (r : Nat) (v : Word) : (s.setReg m r v).part = s.part := rfl
@[simp] theorem State.setReg_mgmt (m : Member) (r : Nat) (v : Word) : (s.setReg m r v).mgmt = s.mgmt := rfl
@[simp] theorem State.setReg_sys (m : Member) (r : Nat) (v : Word) : (s.setReg m r v).sys = s.sys := rfl
@[simp] theorem State.setReg_mem (m : Member) (r : Nat) (v : Word) : (s.setReg m r v).mem = s.mem := rfl
@[simp] theorem State.setReg_warps (m : Member) (r : Nat) (v : Word) : (s.setReg m r v).warps = Tab.modify s.warps m.wid (·.modThread m.lane (·.setReg r v)) := rfl
@[simp] theorem State.setReg_blocks (m : Member) (r : Nat) (v : Word) : (s.setReg m r v).blocks = s.blocks := rfl
@[simp] theorem State.setReg_launches (m : Member) (r : Nat) (v : Word) : (s.setReg m r v).launches = s.launches := rfl
@[simp] theorem State.setReg_queues (m : Member) (r : Nat) (v : Word) : (s.setReg m r v).queues = s.queues := rfl
@[simp] theorem State.setReg_ctxs (m : Member) (r : Nat) (v : Word) : (s.setReg m r v).ctxs = s.ctxs := rfl
@[simp] theorem State.setReg_quarters (m : Member) (r : Nat) (v : Word) : (s.setReg m r v).quarters = s.quarters := rfl
@[simp] theorem State.setReg_waits (m : Member) (r : Nat) (v : Word) : (s.setReg m r v).waits = s.waits := rfl
@[simp] theorem State.setReg_engines (m : Member) (r : Nat) (v : Word) : (s.setReg m r v).engines = s.engines := rfl
@[simp] theorem State.setReg_chunks (m : Member) (r : Nat) (v : Word) : (s.setReg m r v).chunks = s.chunks := rfl
@[simp] theorem State.setReg_arrivals (m : Member) (r : Nat) (v : Word) : (s.setReg m r v).arrivals = s.arrivals := rfl
@[simp] theorem State.setReg_keystones (m : Member) (r : Nat) (v : Word) : (s.setReg m r v).keystones = s.keystones := rfl
@[simp] theorem State.setReg_objTimes (m : Member) (r : Nat) (v : Word) : (s.setReg m r v).objTimes = s.objTimes := rfl
@[simp] theorem State.setReg_recorders (m : Member) (r : Nat) (v : Word) : (s.setReg m r v).recorders = s.recorders := rfl
@[simp] theorem State.setReg_freeze (m : Member) (r : Nat) (v : Word) : (s.setReg m r v).freeze = s.freeze := rfl
@[simp] theorem State.setReg_freezeReqs (m : Member) (r : Nat) (v : Word) : (s.setReg m r v).freezeReqs = s.freezeReqs := rfl
@[simp] theorem State.setReg_fsn (m : Member) (r : Nat) (v : Word) : (s.setReg m r v).fsn = s.fsn := rfl
@[simp] theorem State.setReg_capsule (m : Member) (r : Nat) (v : Word) : (s.setReg m r v).capsule = s.capsule := rfl
@[simp] theorem State.setReg_laneCycles (m : Member) (r : Nat) (v : Word) : (s.setReg m r v).laneCycles = s.laneCycles := rfl
@[simp] theorem State.setReg_host (m : Member) (r : Nat) (v : Word) : (s.setReg m r v).host = s.host := rfl
@[simp] theorem State.setReg_swaps (m : Member) (r : Nat) (v : Word) : (s.setReg m r v).swaps = s.swaps := rfl
@[simp] theorem State.setReg_migrations (m : Member) (r : Nat) (v : Word) : (s.setReg m r v).migrations = s.migrations := rfl
@[simp] theorem State.setReg_keys (m : Member) (r : Nat) (v : Word) : (s.setReg m r v).keys = s.keys := rfl
@[simp] theorem State.setReg_keyGens (m : Member) (r : Nat) (v : Word) : (s.setReg m r v).keyGens = s.keyGens := rfl
@[simp] theorem State.setReg_dram (m : Member) (r : Nat) (v : Word) : (s.setReg m r v).dram = s.dram := rfl
@[simp] theorem State.setReg_flows (m : Member) (r : Nat) (v : Word) : (s.setReg m r v).flows = s.flows := rfl
@[simp] theorem State.setReg_dramSlot (m : Member) (r : Nat) (v : Word) : (s.setReg m r v).dramSlot = s.dramSlot := rfl
@[simp] theorem State.setReg_failedChannels (m : Member) (r : Nat) (v : Word) : (s.setReg m r v).failedChannels = s.failedChannels := rfl
@[simp] theorem State.setReg_ticks (m : Member) (r : Nat) (v : Word) : (s.setReg m r v).ticks = s.ticks := rfl
@[simp] theorem State.setReg_lcFlushed (m : Member) (r : Nat) (v : Word) : (s.setReg m r v).lcFlushed = s.lcFlushed := rfl
@[simp] theorem State.setReg_lastQueue (m : Member) (r : Nat) (v : Word) : (s.setReg m r v).lastQueue = s.lastQueue := rfl
@[simp] theorem State.setReg_fresh (m : Member) (r : Nat) (v : Word) : (s.setReg m r v).fresh = s.fresh := rfl

/-! ### setPred -/

@[simp] theorem State.setPred_turn (m : Member) (p : Nat) (v : Bool) : (s.setPred m p v).turn = s.turn := rfl
@[simp] theorem State.setPred_now (m : Member) (p : Nat) (v : Bool) : (s.setPred m p v).now = s.now := rfl
@[simp] theorem State.setPred_elapsed (m : Member) (p : Nat) (v : Bool) : (s.setPred m p v).elapsed = s.elapsed := rfl
@[simp] theorem State.setPred_focus (m : Member) (p : Nat) (v : Bool) : (s.setPred m p v).focus = s.focus := rfl
@[simp] theorem State.setPred_event (m : Member) (p : Nat) (v : Bool) : (s.setPred m p v).event = s.event := rfl
@[simp] theorem State.setPred_part (m : Member) (p : Nat) (v : Bool) : (s.setPred m p v).part = s.part := rfl
@[simp] theorem State.setPred_mgmt (m : Member) (p : Nat) (v : Bool) : (s.setPred m p v).mgmt = s.mgmt := rfl
@[simp] theorem State.setPred_sys (m : Member) (p : Nat) (v : Bool) : (s.setPred m p v).sys = s.sys := rfl
@[simp] theorem State.setPred_mem (m : Member) (p : Nat) (v : Bool) : (s.setPred m p v).mem = s.mem := rfl
@[simp] theorem State.setPred_warps (m : Member) (p : Nat) (v : Bool) : (s.setPred m p v).warps = Tab.modify s.warps m.wid (·.modThread m.lane (·.setPred p v)) := rfl
@[simp] theorem State.setPred_blocks (m : Member) (p : Nat) (v : Bool) : (s.setPred m p v).blocks = s.blocks := rfl
@[simp] theorem State.setPred_launches (m : Member) (p : Nat) (v : Bool) : (s.setPred m p v).launches = s.launches := rfl
@[simp] theorem State.setPred_queues (m : Member) (p : Nat) (v : Bool) : (s.setPred m p v).queues = s.queues := rfl
@[simp] theorem State.setPred_ctxs (m : Member) (p : Nat) (v : Bool) : (s.setPred m p v).ctxs = s.ctxs := rfl
@[simp] theorem State.setPred_quarters (m : Member) (p : Nat) (v : Bool) : (s.setPred m p v).quarters = s.quarters := rfl
@[simp] theorem State.setPred_waits (m : Member) (p : Nat) (v : Bool) : (s.setPred m p v).waits = s.waits := rfl
@[simp] theorem State.setPred_engines (m : Member) (p : Nat) (v : Bool) : (s.setPred m p v).engines = s.engines := rfl
@[simp] theorem State.setPred_chunks (m : Member) (p : Nat) (v : Bool) : (s.setPred m p v).chunks = s.chunks := rfl
@[simp] theorem State.setPred_arrivals (m : Member) (p : Nat) (v : Bool) : (s.setPred m p v).arrivals = s.arrivals := rfl
@[simp] theorem State.setPred_keystones (m : Member) (p : Nat) (v : Bool) : (s.setPred m p v).keystones = s.keystones := rfl
@[simp] theorem State.setPred_objTimes (m : Member) (p : Nat) (v : Bool) : (s.setPred m p v).objTimes = s.objTimes := rfl
@[simp] theorem State.setPred_recorders (m : Member) (p : Nat) (v : Bool) : (s.setPred m p v).recorders = s.recorders := rfl
@[simp] theorem State.setPred_freeze (m : Member) (p : Nat) (v : Bool) : (s.setPred m p v).freeze = s.freeze := rfl
@[simp] theorem State.setPred_freezeReqs (m : Member) (p : Nat) (v : Bool) : (s.setPred m p v).freezeReqs = s.freezeReqs := rfl
@[simp] theorem State.setPred_fsn (m : Member) (p : Nat) (v : Bool) : (s.setPred m p v).fsn = s.fsn := rfl
@[simp] theorem State.setPred_capsule (m : Member) (p : Nat) (v : Bool) : (s.setPred m p v).capsule = s.capsule := rfl
@[simp] theorem State.setPred_laneCycles (m : Member) (p : Nat) (v : Bool) : (s.setPred m p v).laneCycles = s.laneCycles := rfl
@[simp] theorem State.setPred_host (m : Member) (p : Nat) (v : Bool) : (s.setPred m p v).host = s.host := rfl
@[simp] theorem State.setPred_swaps (m : Member) (p : Nat) (v : Bool) : (s.setPred m p v).swaps = s.swaps := rfl
@[simp] theorem State.setPred_migrations (m : Member) (p : Nat) (v : Bool) : (s.setPred m p v).migrations = s.migrations := rfl
@[simp] theorem State.setPred_keys (m : Member) (p : Nat) (v : Bool) : (s.setPred m p v).keys = s.keys := rfl
@[simp] theorem State.setPred_keyGens (m : Member) (p : Nat) (v : Bool) : (s.setPred m p v).keyGens = s.keyGens := rfl
@[simp] theorem State.setPred_dram (m : Member) (p : Nat) (v : Bool) : (s.setPred m p v).dram = s.dram := rfl
@[simp] theorem State.setPred_flows (m : Member) (p : Nat) (v : Bool) : (s.setPred m p v).flows = s.flows := rfl
@[simp] theorem State.setPred_dramSlot (m : Member) (p : Nat) (v : Bool) : (s.setPred m p v).dramSlot = s.dramSlot := rfl
@[simp] theorem State.setPred_failedChannels (m : Member) (p : Nat) (v : Bool) : (s.setPred m p v).failedChannels = s.failedChannels := rfl
@[simp] theorem State.setPred_ticks (m : Member) (p : Nat) (v : Bool) : (s.setPred m p v).ticks = s.ticks := rfl
@[simp] theorem State.setPred_lcFlushed (m : Member) (p : Nat) (v : Bool) : (s.setPred m p v).lcFlushed = s.lcFlushed := rfl
@[simp] theorem State.setPred_lastQueue (m : Member) (p : Nat) (v : Bool) : (s.setPred m p v).lastQueue = s.lastQueue := rfl
@[simp] theorem State.setPred_fresh (m : Member) (p : Nat) (v : Bool) : (s.setPred m p v).fresh = s.fresh := rfl

/-! ### modBlock -/

@[simp] theorem State.modBlock_turn (b : Nat) (f : Block → Block) : (s.modBlock b f).turn = s.turn := rfl
@[simp] theorem State.modBlock_now (b : Nat) (f : Block → Block) : (s.modBlock b f).now = s.now := rfl
@[simp] theorem State.modBlock_elapsed (b : Nat) (f : Block → Block) : (s.modBlock b f).elapsed = s.elapsed := rfl
@[simp] theorem State.modBlock_focus (b : Nat) (f : Block → Block) : (s.modBlock b f).focus = s.focus := rfl
@[simp] theorem State.modBlock_event (b : Nat) (f : Block → Block) : (s.modBlock b f).event = s.event := rfl
@[simp] theorem State.modBlock_part (b : Nat) (f : Block → Block) : (s.modBlock b f).part = s.part := rfl
@[simp] theorem State.modBlock_mgmt (b : Nat) (f : Block → Block) : (s.modBlock b f).mgmt = s.mgmt := rfl
@[simp] theorem State.modBlock_sys (b : Nat) (f : Block → Block) : (s.modBlock b f).sys = s.sys := rfl
@[simp] theorem State.modBlock_mem (b : Nat) (f : Block → Block) : (s.modBlock b f).mem = s.mem := rfl
@[simp] theorem State.modBlock_warps (b : Nat) (f : Block → Block) : (s.modBlock b f).warps = s.warps := rfl
@[simp] theorem State.modBlock_blocks (b : Nat) (f : Block → Block) : (s.modBlock b f).blocks = Tab.modify s.blocks b f := rfl
@[simp] theorem State.modBlock_launches (b : Nat) (f : Block → Block) : (s.modBlock b f).launches = s.launches := rfl
@[simp] theorem State.modBlock_queues (b : Nat) (f : Block → Block) : (s.modBlock b f).queues = s.queues := rfl
@[simp] theorem State.modBlock_ctxs (b : Nat) (f : Block → Block) : (s.modBlock b f).ctxs = s.ctxs := rfl
@[simp] theorem State.modBlock_quarters (b : Nat) (f : Block → Block) : (s.modBlock b f).quarters = s.quarters := rfl
@[simp] theorem State.modBlock_waits (b : Nat) (f : Block → Block) : (s.modBlock b f).waits = s.waits := rfl
@[simp] theorem State.modBlock_engines (b : Nat) (f : Block → Block) : (s.modBlock b f).engines = s.engines := rfl
@[simp] theorem State.modBlock_chunks (b : Nat) (f : Block → Block) : (s.modBlock b f).chunks = s.chunks := rfl
@[simp] theorem State.modBlock_arrivals (b : Nat) (f : Block → Block) : (s.modBlock b f).arrivals = s.arrivals := rfl
@[simp] theorem State.modBlock_keystones (b : Nat) (f : Block → Block) : (s.modBlock b f).keystones = s.keystones := rfl
@[simp] theorem State.modBlock_objTimes (b : Nat) (f : Block → Block) : (s.modBlock b f).objTimes = s.objTimes := rfl
@[simp] theorem State.modBlock_recorders (b : Nat) (f : Block → Block) : (s.modBlock b f).recorders = s.recorders := rfl
@[simp] theorem State.modBlock_freeze (b : Nat) (f : Block → Block) : (s.modBlock b f).freeze = s.freeze := rfl
@[simp] theorem State.modBlock_freezeReqs (b : Nat) (f : Block → Block) : (s.modBlock b f).freezeReqs = s.freezeReqs := rfl
@[simp] theorem State.modBlock_fsn (b : Nat) (f : Block → Block) : (s.modBlock b f).fsn = s.fsn := rfl
@[simp] theorem State.modBlock_capsule (b : Nat) (f : Block → Block) : (s.modBlock b f).capsule = s.capsule := rfl
@[simp] theorem State.modBlock_laneCycles (b : Nat) (f : Block → Block) : (s.modBlock b f).laneCycles = s.laneCycles := rfl
@[simp] theorem State.modBlock_host (b : Nat) (f : Block → Block) : (s.modBlock b f).host = s.host := rfl
@[simp] theorem State.modBlock_swaps (b : Nat) (f : Block → Block) : (s.modBlock b f).swaps = s.swaps := rfl
@[simp] theorem State.modBlock_migrations (b : Nat) (f : Block → Block) : (s.modBlock b f).migrations = s.migrations := rfl
@[simp] theorem State.modBlock_keys (b : Nat) (f : Block → Block) : (s.modBlock b f).keys = s.keys := rfl
@[simp] theorem State.modBlock_keyGens (b : Nat) (f : Block → Block) : (s.modBlock b f).keyGens = s.keyGens := rfl
@[simp] theorem State.modBlock_dram (b : Nat) (f : Block → Block) : (s.modBlock b f).dram = s.dram := rfl
@[simp] theorem State.modBlock_flows (b : Nat) (f : Block → Block) : (s.modBlock b f).flows = s.flows := rfl
@[simp] theorem State.modBlock_dramSlot (b : Nat) (f : Block → Block) : (s.modBlock b f).dramSlot = s.dramSlot := rfl
@[simp] theorem State.modBlock_failedChannels (b : Nat) (f : Block → Block) : (s.modBlock b f).failedChannels = s.failedChannels := rfl
@[simp] theorem State.modBlock_ticks (b : Nat) (f : Block → Block) : (s.modBlock b f).ticks = s.ticks := rfl
@[simp] theorem State.modBlock_lcFlushed (b : Nat) (f : Block → Block) : (s.modBlock b f).lcFlushed = s.lcFlushed := rfl
@[simp] theorem State.modBlock_lastQueue (b : Nat) (f : Block → Block) : (s.modBlock b f).lastQueue = s.lastQueue := rfl
@[simp] theorem State.modBlock_fresh (b : Nat) (f : Block → Block) : (s.modBlock b f).fresh = s.fresh := rfl

/-! ### modLaunch -/

@[simp] theorem State.modLaunch_turn (l : Nat) (f : Launch → Launch) : (s.modLaunch l f).turn = s.turn := rfl
@[simp] theorem State.modLaunch_now (l : Nat) (f : Launch → Launch) : (s.modLaunch l f).now = s.now := rfl
@[simp] theorem State.modLaunch_elapsed (l : Nat) (f : Launch → Launch) : (s.modLaunch l f).elapsed = s.elapsed := rfl
@[simp] theorem State.modLaunch_focus (l : Nat) (f : Launch → Launch) : (s.modLaunch l f).focus = s.focus := rfl
@[simp] theorem State.modLaunch_event (l : Nat) (f : Launch → Launch) : (s.modLaunch l f).event = s.event := rfl
@[simp] theorem State.modLaunch_part (l : Nat) (f : Launch → Launch) : (s.modLaunch l f).part = s.part := rfl
@[simp] theorem State.modLaunch_mgmt (l : Nat) (f : Launch → Launch) : (s.modLaunch l f).mgmt = s.mgmt := rfl
@[simp] theorem State.modLaunch_sys (l : Nat) (f : Launch → Launch) : (s.modLaunch l f).sys = s.sys := rfl
@[simp] theorem State.modLaunch_mem (l : Nat) (f : Launch → Launch) : (s.modLaunch l f).mem = s.mem := rfl
@[simp] theorem State.modLaunch_warps (l : Nat) (f : Launch → Launch) : (s.modLaunch l f).warps = s.warps := rfl
@[simp] theorem State.modLaunch_blocks (l : Nat) (f : Launch → Launch) : (s.modLaunch l f).blocks = s.blocks := rfl
@[simp] theorem State.modLaunch_launches (l : Nat) (f : Launch → Launch) : (s.modLaunch l f).launches = Tab.modify s.launches l f := rfl
@[simp] theorem State.modLaunch_queues (l : Nat) (f : Launch → Launch) : (s.modLaunch l f).queues = s.queues := rfl
@[simp] theorem State.modLaunch_ctxs (l : Nat) (f : Launch → Launch) : (s.modLaunch l f).ctxs = s.ctxs := rfl
@[simp] theorem State.modLaunch_quarters (l : Nat) (f : Launch → Launch) : (s.modLaunch l f).quarters = s.quarters := rfl
@[simp] theorem State.modLaunch_waits (l : Nat) (f : Launch → Launch) : (s.modLaunch l f).waits = s.waits := rfl
@[simp] theorem State.modLaunch_engines (l : Nat) (f : Launch → Launch) : (s.modLaunch l f).engines = s.engines := rfl
@[simp] theorem State.modLaunch_chunks (l : Nat) (f : Launch → Launch) : (s.modLaunch l f).chunks = s.chunks := rfl
@[simp] theorem State.modLaunch_arrivals (l : Nat) (f : Launch → Launch) : (s.modLaunch l f).arrivals = s.arrivals := rfl
@[simp] theorem State.modLaunch_keystones (l : Nat) (f : Launch → Launch) : (s.modLaunch l f).keystones = s.keystones := rfl
@[simp] theorem State.modLaunch_objTimes (l : Nat) (f : Launch → Launch) : (s.modLaunch l f).objTimes = s.objTimes := rfl
@[simp] theorem State.modLaunch_recorders (l : Nat) (f : Launch → Launch) : (s.modLaunch l f).recorders = s.recorders := rfl
@[simp] theorem State.modLaunch_freeze (l : Nat) (f : Launch → Launch) : (s.modLaunch l f).freeze = s.freeze := rfl
@[simp] theorem State.modLaunch_freezeReqs (l : Nat) (f : Launch → Launch) : (s.modLaunch l f).freezeReqs = s.freezeReqs := rfl
@[simp] theorem State.modLaunch_fsn (l : Nat) (f : Launch → Launch) : (s.modLaunch l f).fsn = s.fsn := rfl
@[simp] theorem State.modLaunch_capsule (l : Nat) (f : Launch → Launch) : (s.modLaunch l f).capsule = s.capsule := rfl
@[simp] theorem State.modLaunch_laneCycles (l : Nat) (f : Launch → Launch) : (s.modLaunch l f).laneCycles = s.laneCycles := rfl
@[simp] theorem State.modLaunch_host (l : Nat) (f : Launch → Launch) : (s.modLaunch l f).host = s.host := rfl
@[simp] theorem State.modLaunch_swaps (l : Nat) (f : Launch → Launch) : (s.modLaunch l f).swaps = s.swaps := rfl
@[simp] theorem State.modLaunch_migrations (l : Nat) (f : Launch → Launch) : (s.modLaunch l f).migrations = s.migrations := rfl
@[simp] theorem State.modLaunch_keys (l : Nat) (f : Launch → Launch) : (s.modLaunch l f).keys = s.keys := rfl
@[simp] theorem State.modLaunch_keyGens (l : Nat) (f : Launch → Launch) : (s.modLaunch l f).keyGens = s.keyGens := rfl
@[simp] theorem State.modLaunch_dram (l : Nat) (f : Launch → Launch) : (s.modLaunch l f).dram = s.dram := rfl
@[simp] theorem State.modLaunch_flows (l : Nat) (f : Launch → Launch) : (s.modLaunch l f).flows = s.flows := rfl
@[simp] theorem State.modLaunch_dramSlot (l : Nat) (f : Launch → Launch) : (s.modLaunch l f).dramSlot = s.dramSlot := rfl
@[simp] theorem State.modLaunch_failedChannels (l : Nat) (f : Launch → Launch) : (s.modLaunch l f).failedChannels = s.failedChannels := rfl
@[simp] theorem State.modLaunch_ticks (l : Nat) (f : Launch → Launch) : (s.modLaunch l f).ticks = s.ticks := rfl
@[simp] theorem State.modLaunch_lcFlushed (l : Nat) (f : Launch → Launch) : (s.modLaunch l f).lcFlushed = s.lcFlushed := rfl
@[simp] theorem State.modLaunch_lastQueue (l : Nat) (f : Launch → Launch) : (s.modLaunch l f).lastQueue = s.lastQueue := rfl
@[simp] theorem State.modLaunch_fresh (l : Nat) (f : Launch → Launch) : (s.modLaunch l f).fresh = s.fresh := rfl

/-! ### modCtx -/

@[simp] theorem State.modCtx_turn (c : Nat) (f : Ctx → Ctx) : (s.modCtx c f).turn = s.turn := rfl
@[simp] theorem State.modCtx_now (c : Nat) (f : Ctx → Ctx) : (s.modCtx c f).now = s.now := rfl
@[simp] theorem State.modCtx_elapsed (c : Nat) (f : Ctx → Ctx) : (s.modCtx c f).elapsed = s.elapsed := rfl
@[simp] theorem State.modCtx_focus (c : Nat) (f : Ctx → Ctx) : (s.modCtx c f).focus = s.focus := rfl
@[simp] theorem State.modCtx_event (c : Nat) (f : Ctx → Ctx) : (s.modCtx c f).event = s.event := rfl
@[simp] theorem State.modCtx_part (c : Nat) (f : Ctx → Ctx) : (s.modCtx c f).part = s.part := rfl
@[simp] theorem State.modCtx_mgmt (c : Nat) (f : Ctx → Ctx) : (s.modCtx c f).mgmt = s.mgmt := rfl
@[simp] theorem State.modCtx_sys (c : Nat) (f : Ctx → Ctx) : (s.modCtx c f).sys = s.sys := rfl
@[simp] theorem State.modCtx_mem (c : Nat) (f : Ctx → Ctx) : (s.modCtx c f).mem = s.mem := rfl
@[simp] theorem State.modCtx_warps (c : Nat) (f : Ctx → Ctx) : (s.modCtx c f).warps = s.warps := rfl
@[simp] theorem State.modCtx_blocks (c : Nat) (f : Ctx → Ctx) : (s.modCtx c f).blocks = s.blocks := rfl
@[simp] theorem State.modCtx_launches (c : Nat) (f : Ctx → Ctx) : (s.modCtx c f).launches = s.launches := rfl
@[simp] theorem State.modCtx_queues (c : Nat) (f : Ctx → Ctx) : (s.modCtx c f).queues = s.queues := rfl
@[simp] theorem State.modCtx_ctxs (c : Nat) (f : Ctx → Ctx) : (s.modCtx c f).ctxs = Tab.modify s.ctxs c f := rfl
@[simp] theorem State.modCtx_quarters (c : Nat) (f : Ctx → Ctx) : (s.modCtx c f).quarters = s.quarters := rfl
@[simp] theorem State.modCtx_waits (c : Nat) (f : Ctx → Ctx) : (s.modCtx c f).waits = s.waits := rfl
@[simp] theorem State.modCtx_engines (c : Nat) (f : Ctx → Ctx) : (s.modCtx c f).engines = s.engines := rfl
@[simp] theorem State.modCtx_chunks (c : Nat) (f : Ctx → Ctx) : (s.modCtx c f).chunks = s.chunks := rfl
@[simp] theorem State.modCtx_arrivals (c : Nat) (f : Ctx → Ctx) : (s.modCtx c f).arrivals = s.arrivals := rfl
@[simp] theorem State.modCtx_keystones (c : Nat) (f : Ctx → Ctx) : (s.modCtx c f).keystones = s.keystones := rfl
@[simp] theorem State.modCtx_objTimes (c : Nat) (f : Ctx → Ctx) : (s.modCtx c f).objTimes = s.objTimes := rfl
@[simp] theorem State.modCtx_recorders (c : Nat) (f : Ctx → Ctx) : (s.modCtx c f).recorders = s.recorders := rfl
@[simp] theorem State.modCtx_freeze (c : Nat) (f : Ctx → Ctx) : (s.modCtx c f).freeze = s.freeze := rfl
@[simp] theorem State.modCtx_freezeReqs (c : Nat) (f : Ctx → Ctx) : (s.modCtx c f).freezeReqs = s.freezeReqs := rfl
@[simp] theorem State.modCtx_fsn (c : Nat) (f : Ctx → Ctx) : (s.modCtx c f).fsn = s.fsn := rfl
@[simp] theorem State.modCtx_capsule (c : Nat) (f : Ctx → Ctx) : (s.modCtx c f).capsule = s.capsule := rfl
@[simp] theorem State.modCtx_laneCycles (c : Nat) (f : Ctx → Ctx) : (s.modCtx c f).laneCycles = s.laneCycles := rfl
@[simp] theorem State.modCtx_host (c : Nat) (f : Ctx → Ctx) : (s.modCtx c f).host = s.host := rfl
@[simp] theorem State.modCtx_swaps (c : Nat) (f : Ctx → Ctx) : (s.modCtx c f).swaps = s.swaps := rfl
@[simp] theorem State.modCtx_migrations (c : Nat) (f : Ctx → Ctx) : (s.modCtx c f).migrations = s.migrations := rfl
@[simp] theorem State.modCtx_keys (c : Nat) (f : Ctx → Ctx) : (s.modCtx c f).keys = s.keys := rfl
@[simp] theorem State.modCtx_keyGens (c : Nat) (f : Ctx → Ctx) : (s.modCtx c f).keyGens = s.keyGens := rfl
@[simp] theorem State.modCtx_dram (c : Nat) (f : Ctx → Ctx) : (s.modCtx c f).dram = s.dram := rfl
@[simp] theorem State.modCtx_flows (c : Nat) (f : Ctx → Ctx) : (s.modCtx c f).flows = s.flows := rfl
@[simp] theorem State.modCtx_dramSlot (c : Nat) (f : Ctx → Ctx) : (s.modCtx c f).dramSlot = s.dramSlot := rfl
@[simp] theorem State.modCtx_failedChannels (c : Nat) (f : Ctx → Ctx) : (s.modCtx c f).failedChannels = s.failedChannels := rfl
@[simp] theorem State.modCtx_ticks (c : Nat) (f : Ctx → Ctx) : (s.modCtx c f).ticks = s.ticks := rfl
@[simp] theorem State.modCtx_lcFlushed (c : Nat) (f : Ctx → Ctx) : (s.modCtx c f).lcFlushed = s.lcFlushed := rfl
@[simp] theorem State.modCtx_lastQueue (c : Nat) (f : Ctx → Ctx) : (s.modCtx c f).lastQueue = s.lastQueue := rfl
@[simp] theorem State.modCtx_fresh (c : Nat) (f : Ctx → Ctx) : (s.modCtx c f).fresh = s.fresh := rfl

/-! ### modQueue -/

@[simp] theorem State.modQueue_turn (q : Nat) (f : Queue → Queue) : (s.modQueue q f).turn = s.turn := rfl
@[simp] theorem State.modQueue_now (q : Nat) (f : Queue → Queue) : (s.modQueue q f).now = s.now := rfl
@[simp] theorem State.modQueue_elapsed (q : Nat) (f : Queue → Queue) : (s.modQueue q f).elapsed = s.elapsed := rfl
@[simp] theorem State.modQueue_focus (q : Nat) (f : Queue → Queue) : (s.modQueue q f).focus = s.focus := rfl
@[simp] theorem State.modQueue_event (q : Nat) (f : Queue → Queue) : (s.modQueue q f).event = s.event := rfl
@[simp] theorem State.modQueue_part (q : Nat) (f : Queue → Queue) : (s.modQueue q f).part = s.part := rfl
@[simp] theorem State.modQueue_mgmt (q : Nat) (f : Queue → Queue) : (s.modQueue q f).mgmt = s.mgmt := rfl
@[simp] theorem State.modQueue_sys (q : Nat) (f : Queue → Queue) : (s.modQueue q f).sys = s.sys := rfl
@[simp] theorem State.modQueue_mem (q : Nat) (f : Queue → Queue) : (s.modQueue q f).mem = s.mem := rfl
@[simp] theorem State.modQueue_warps (q : Nat) (f : Queue → Queue) : (s.modQueue q f).warps = s.warps := rfl
@[simp] theorem State.modQueue_blocks (q : Nat) (f : Queue → Queue) : (s.modQueue q f).blocks = s.blocks := rfl
@[simp] theorem State.modQueue_launches (q : Nat) (f : Queue → Queue) : (s.modQueue q f).launches = s.launches := rfl
@[simp] theorem State.modQueue_queues (q : Nat) (f : Queue → Queue) : (s.modQueue q f).queues = Tab.modify s.queues q f := rfl
@[simp] theorem State.modQueue_ctxs (q : Nat) (f : Queue → Queue) : (s.modQueue q f).ctxs = s.ctxs := rfl
@[simp] theorem State.modQueue_quarters (q : Nat) (f : Queue → Queue) : (s.modQueue q f).quarters = s.quarters := rfl
@[simp] theorem State.modQueue_waits (q : Nat) (f : Queue → Queue) : (s.modQueue q f).waits = s.waits := rfl
@[simp] theorem State.modQueue_engines (q : Nat) (f : Queue → Queue) : (s.modQueue q f).engines = s.engines := rfl
@[simp] theorem State.modQueue_chunks (q : Nat) (f : Queue → Queue) : (s.modQueue q f).chunks = s.chunks := rfl
@[simp] theorem State.modQueue_arrivals (q : Nat) (f : Queue → Queue) : (s.modQueue q f).arrivals = s.arrivals := rfl
@[simp] theorem State.modQueue_keystones (q : Nat) (f : Queue → Queue) : (s.modQueue q f).keystones = s.keystones := rfl
@[simp] theorem State.modQueue_objTimes (q : Nat) (f : Queue → Queue) : (s.modQueue q f).objTimes = s.objTimes := rfl
@[simp] theorem State.modQueue_recorders (q : Nat) (f : Queue → Queue) : (s.modQueue q f).recorders = s.recorders := rfl
@[simp] theorem State.modQueue_freeze (q : Nat) (f : Queue → Queue) : (s.modQueue q f).freeze = s.freeze := rfl
@[simp] theorem State.modQueue_freezeReqs (q : Nat) (f : Queue → Queue) : (s.modQueue q f).freezeReqs = s.freezeReqs := rfl
@[simp] theorem State.modQueue_fsn (q : Nat) (f : Queue → Queue) : (s.modQueue q f).fsn = s.fsn := rfl
@[simp] theorem State.modQueue_capsule (q : Nat) (f : Queue → Queue) : (s.modQueue q f).capsule = s.capsule := rfl
@[simp] theorem State.modQueue_laneCycles (q : Nat) (f : Queue → Queue) : (s.modQueue q f).laneCycles = s.laneCycles := rfl
@[simp] theorem State.modQueue_host (q : Nat) (f : Queue → Queue) : (s.modQueue q f).host = s.host := rfl
@[simp] theorem State.modQueue_swaps (q : Nat) (f : Queue → Queue) : (s.modQueue q f).swaps = s.swaps := rfl
@[simp] theorem State.modQueue_migrations (q : Nat) (f : Queue → Queue) : (s.modQueue q f).migrations = s.migrations := rfl
@[simp] theorem State.modQueue_keys (q : Nat) (f : Queue → Queue) : (s.modQueue q f).keys = s.keys := rfl
@[simp] theorem State.modQueue_keyGens (q : Nat) (f : Queue → Queue) : (s.modQueue q f).keyGens = s.keyGens := rfl
@[simp] theorem State.modQueue_dram (q : Nat) (f : Queue → Queue) : (s.modQueue q f).dram = s.dram := rfl
@[simp] theorem State.modQueue_flows (q : Nat) (f : Queue → Queue) : (s.modQueue q f).flows = s.flows := rfl
@[simp] theorem State.modQueue_dramSlot (q : Nat) (f : Queue → Queue) : (s.modQueue q f).dramSlot = s.dramSlot := rfl
@[simp] theorem State.modQueue_failedChannels (q : Nat) (f : Queue → Queue) : (s.modQueue q f).failedChannels = s.failedChannels := rfl
@[simp] theorem State.modQueue_ticks (q : Nat) (f : Queue → Queue) : (s.modQueue q f).ticks = s.ticks := rfl
@[simp] theorem State.modQueue_lcFlushed (q : Nat) (f : Queue → Queue) : (s.modQueue q f).lcFlushed = s.lcFlushed := rfl
@[simp] theorem State.modQueue_lastQueue (q : Nat) (f : Queue → Queue) : (s.modQueue q f).lastQueue = s.lastQueue := rfl
@[simp] theorem State.modQueue_fresh (q : Nat) (f : Queue → Queue) : (s.modQueue q f).fresh = s.fresh := rfl

/-! ### modQuarter -/

@[simp] theorem State.modQuarter_turn (q : Nat) (f : Quarter → Quarter) : (s.modQuarter q f).turn = s.turn := rfl
@[simp] theorem State.modQuarter_now (q : Nat) (f : Quarter → Quarter) : (s.modQuarter q f).now = s.now := rfl
@[simp] theorem State.modQuarter_elapsed (q : Nat) (f : Quarter → Quarter) : (s.modQuarter q f).elapsed = s.elapsed := rfl
@[simp] theorem State.modQuarter_focus (q : Nat) (f : Quarter → Quarter) : (s.modQuarter q f).focus = s.focus := rfl
@[simp] theorem State.modQuarter_event (q : Nat) (f : Quarter → Quarter) : (s.modQuarter q f).event = s.event := rfl
@[simp] theorem State.modQuarter_part (q : Nat) (f : Quarter → Quarter) : (s.modQuarter q f).part = s.part := rfl
@[simp] theorem State.modQuarter_mgmt (q : Nat) (f : Quarter → Quarter) : (s.modQuarter q f).mgmt = s.mgmt := rfl
@[simp] theorem State.modQuarter_sys (q : Nat) (f : Quarter → Quarter) : (s.modQuarter q f).sys = s.sys := rfl
@[simp] theorem State.modQuarter_mem (q : Nat) (f : Quarter → Quarter) : (s.modQuarter q f).mem = s.mem := rfl
@[simp] theorem State.modQuarter_warps (q : Nat) (f : Quarter → Quarter) : (s.modQuarter q f).warps = s.warps := rfl
@[simp] theorem State.modQuarter_blocks (q : Nat) (f : Quarter → Quarter) : (s.modQuarter q f).blocks = s.blocks := rfl
@[simp] theorem State.modQuarter_launches (q : Nat) (f : Quarter → Quarter) : (s.modQuarter q f).launches = s.launches := rfl
@[simp] theorem State.modQuarter_queues (q : Nat) (f : Quarter → Quarter) : (s.modQuarter q f).queues = s.queues := rfl
@[simp] theorem State.modQuarter_ctxs (q : Nat) (f : Quarter → Quarter) : (s.modQuarter q f).ctxs = s.ctxs := rfl
@[simp] theorem State.modQuarter_quarters (q : Nat) (f : Quarter → Quarter) : (s.modQuarter q f).quarters = Tab.set Quarter.empty s.quarters q (f (s.quarter q)) := rfl
@[simp] theorem State.modQuarter_waits (q : Nat) (f : Quarter → Quarter) : (s.modQuarter q f).waits = s.waits := rfl
@[simp] theorem State.modQuarter_engines (q : Nat) (f : Quarter → Quarter) : (s.modQuarter q f).engines = s.engines := rfl
@[simp] theorem State.modQuarter_chunks (q : Nat) (f : Quarter → Quarter) : (s.modQuarter q f).chunks = s.chunks := rfl
@[simp] theorem State.modQuarter_arrivals (q : Nat) (f : Quarter → Quarter) : (s.modQuarter q f).arrivals = s.arrivals := rfl
@[simp] theorem State.modQuarter_keystones (q : Nat) (f : Quarter → Quarter) : (s.modQuarter q f).keystones = s.keystones := rfl
@[simp] theorem State.modQuarter_objTimes (q : Nat) (f : Quarter → Quarter) : (s.modQuarter q f).objTimes = s.objTimes := rfl
@[simp] theorem State.modQuarter_recorders (q : Nat) (f : Quarter → Quarter) : (s.modQuarter q f).recorders = s.recorders := rfl
@[simp] theorem State.modQuarter_freeze (q : Nat) (f : Quarter → Quarter) : (s.modQuarter q f).freeze = s.freeze := rfl
@[simp] theorem State.modQuarter_freezeReqs (q : Nat) (f : Quarter → Quarter) : (s.modQuarter q f).freezeReqs = s.freezeReqs := rfl
@[simp] theorem State.modQuarter_fsn (q : Nat) (f : Quarter → Quarter) : (s.modQuarter q f).fsn = s.fsn := rfl
@[simp] theorem State.modQuarter_capsule (q : Nat) (f : Quarter → Quarter) : (s.modQuarter q f).capsule = s.capsule := rfl
@[simp] theorem State.modQuarter_laneCycles (q : Nat) (f : Quarter → Quarter) : (s.modQuarter q f).laneCycles = s.laneCycles := rfl
@[simp] theorem State.modQuarter_host (q : Nat) (f : Quarter → Quarter) : (s.modQuarter q f).host = s.host := rfl
@[simp] theorem State.modQuarter_swaps (q : Nat) (f : Quarter → Quarter) : (s.modQuarter q f).swaps = s.swaps := rfl
@[simp] theorem State.modQuarter_migrations (q : Nat) (f : Quarter → Quarter) : (s.modQuarter q f).migrations = s.migrations := rfl
@[simp] theorem State.modQuarter_keys (q : Nat) (f : Quarter → Quarter) : (s.modQuarter q f).keys = s.keys := rfl
@[simp] theorem State.modQuarter_keyGens (q : Nat) (f : Quarter → Quarter) : (s.modQuarter q f).keyGens = s.keyGens := rfl
@[simp] theorem State.modQuarter_dram (q : Nat) (f : Quarter → Quarter) : (s.modQuarter q f).dram = s.dram := rfl
@[simp] theorem State.modQuarter_flows (q : Nat) (f : Quarter → Quarter) : (s.modQuarter q f).flows = s.flows := rfl
@[simp] theorem State.modQuarter_dramSlot (q : Nat) (f : Quarter → Quarter) : (s.modQuarter q f).dramSlot = s.dramSlot := rfl
@[simp] theorem State.modQuarter_failedChannels (q : Nat) (f : Quarter → Quarter) : (s.modQuarter q f).failedChannels = s.failedChannels := rfl
@[simp] theorem State.modQuarter_ticks (q : Nat) (f : Quarter → Quarter) : (s.modQuarter q f).ticks = s.ticks := rfl
@[simp] theorem State.modQuarter_lcFlushed (q : Nat) (f : Quarter → Quarter) : (s.modQuarter q f).lcFlushed = s.lcFlushed := rfl
@[simp] theorem State.modQuarter_lastQueue (q : Nat) (f : Quarter → Quarter) : (s.modQuarter q f).lastQueue = s.lastQueue := rfl
@[simp] theorem State.modQuarter_fresh (q : Nat) (f : Quarter → Quarter) : (s.modQuarter q f).fresh = s.fresh := rfl

/-! ### freeSlot -/

@[simp] theorem State.freeSlot_turn (q : Nat) : (s.freeSlot q).turn = s.turn := rfl
@[simp] theorem State.freeSlot_now (q : Nat) : (s.freeSlot q).now = s.now := rfl
@[simp] theorem State.freeSlot_elapsed (q : Nat) : (s.freeSlot q).elapsed = s.elapsed := rfl
@[simp] theorem State.freeSlot_focus (q : Nat) : (s.freeSlot q).focus = s.focus := rfl
@[simp] theorem State.freeSlot_event (q : Nat) : (s.freeSlot q).event = s.event := rfl
@[simp] theorem State.freeSlot_part (q : Nat) : (s.freeSlot q).part = s.part := rfl
@[simp] theorem State.freeSlot_mgmt (q : Nat) : (s.freeSlot q).mgmt = s.mgmt := rfl
@[simp] theorem State.freeSlot_sys (q : Nat) : (s.freeSlot q).sys = s.sys := rfl
@[simp] theorem State.freeSlot_mem (q : Nat) : (s.freeSlot q).mem = s.mem := rfl
@[simp] theorem State.freeSlot_warps (q : Nat) : (s.freeSlot q).warps = s.warps := rfl
@[simp] theorem State.freeSlot_blocks (q : Nat) : (s.freeSlot q).blocks = s.blocks := rfl
@[simp] theorem State.freeSlot_launches (q : Nat) : (s.freeSlot q).launches = s.launches := rfl
@[simp] theorem State.freeSlot_queues (q : Nat) : (s.freeSlot q).queues = s.queues := rfl
@[simp] theorem State.freeSlot_ctxs (q : Nat) : (s.freeSlot q).ctxs = s.ctxs := rfl
@[simp] theorem State.freeSlot_quarters (q : Nat) : (s.freeSlot q).quarters = Tab.set Quarter.empty s.quarters q { s.quarter q with slot := none } := rfl
@[simp] theorem State.freeSlot_waits (q : Nat) : (s.freeSlot q).waits = s.waits := rfl
@[simp] theorem State.freeSlot_engines (q : Nat) : (s.freeSlot q).engines = s.engines := rfl
@[simp] theorem State.freeSlot_chunks (q : Nat) : (s.freeSlot q).chunks = s.chunks := rfl
@[simp] theorem State.freeSlot_arrivals (q : Nat) : (s.freeSlot q).arrivals = s.arrivals := rfl
@[simp] theorem State.freeSlot_keystones (q : Nat) : (s.freeSlot q).keystones = s.keystones := rfl
@[simp] theorem State.freeSlot_objTimes (q : Nat) : (s.freeSlot q).objTimes = s.objTimes := rfl
@[simp] theorem State.freeSlot_recorders (q : Nat) : (s.freeSlot q).recorders = s.recorders := rfl
@[simp] theorem State.freeSlot_freeze (q : Nat) : (s.freeSlot q).freeze = s.freeze := rfl
@[simp] theorem State.freeSlot_freezeReqs (q : Nat) : (s.freeSlot q).freezeReqs = s.freezeReqs := rfl
@[simp] theorem State.freeSlot_fsn (q : Nat) : (s.freeSlot q).fsn = s.fsn := rfl
@[simp] theorem State.freeSlot_capsule (q : Nat) : (s.freeSlot q).capsule = s.capsule := rfl
@[simp] theorem State.freeSlot_laneCycles (q : Nat) : (s.freeSlot q).laneCycles = s.laneCycles := rfl
@[simp] theorem State.freeSlot_host (q : Nat) : (s.freeSlot q).host = s.host := rfl
@[simp] theorem State.freeSlot_swaps (q : Nat) : (s.freeSlot q).swaps = s.swaps := rfl
@[simp] theorem State.freeSlot_migrations (q : Nat) : (s.freeSlot q).migrations = s.migrations := rfl
@[simp] theorem State.freeSlot_keys (q : Nat) : (s.freeSlot q).keys = s.keys := rfl
@[simp] theorem State.freeSlot_keyGens (q : Nat) : (s.freeSlot q).keyGens = s.keyGens := rfl
@[simp] theorem State.freeSlot_dram (q : Nat) : (s.freeSlot q).dram = s.dram := rfl
@[simp] theorem State.freeSlot_flows (q : Nat) : (s.freeSlot q).flows = s.flows := rfl
@[simp] theorem State.freeSlot_dramSlot (q : Nat) : (s.freeSlot q).dramSlot = s.dramSlot := rfl
@[simp] theorem State.freeSlot_failedChannels (q : Nat) : (s.freeSlot q).failedChannels = s.failedChannels := rfl
@[simp] theorem State.freeSlot_ticks (q : Nat) : (s.freeSlot q).ticks = s.ticks := rfl
@[simp] theorem State.freeSlot_lcFlushed (q : Nat) : (s.freeSlot q).lcFlushed = s.lcFlushed := rfl
@[simp] theorem State.freeSlot_lastQueue (q : Nat) : (s.freeSlot q).lastQueue = s.lastQueue := rfl
@[simp] theorem State.freeSlot_fresh (q : Nat) : (s.freeSlot q).fresh = s.fresh := rfl

/-! ### putRecorder -/

@[simp] theorem State.putRecorder_turn (c : Nat) (r : Recorder) : (s.putRecorder c r).turn = s.turn := rfl
@[simp] theorem State.putRecorder_now (c : Nat) (r : Recorder) : (s.putRecorder c r).now = s.now := rfl
@[simp] theorem State.putRecorder_elapsed (c : Nat) (r : Recorder) : (s.putRecorder c r).elapsed = s.elapsed := rfl
@[simp] theorem State.putRecorder_focus (c : Nat) (r : Recorder) : (s.putRecorder c r).focus = s.focus := rfl
@[simp] theorem State.putRecorder_event (c : Nat) (r : Recorder) : (s.putRecorder c r).event = s.event := rfl
@[simp] theorem State.putRecorder_part (c : Nat) (r : Recorder) : (s.putRecorder c r).part = s.part := rfl
@[simp] theorem State.putRecorder_mgmt (c : Nat) (r : Recorder) : (s.putRecorder c r).mgmt = s.mgmt := rfl
@[simp] theorem State.putRecorder_sys (c : Nat) (r : Recorder) : (s.putRecorder c r).sys = s.sys := rfl
@[simp] theorem State.putRecorder_mem (c : Nat) (r : Recorder) : (s.putRecorder c r).mem = s.mem := rfl
@[simp] theorem State.putRecorder_warps (c : Nat) (r : Recorder) : (s.putRecorder c r).warps = s.warps := rfl
@[simp] theorem State.putRecorder_blocks (c : Nat) (r : Recorder) : (s.putRecorder c r).blocks = s.blocks := rfl
@[simp] theorem State.putRecorder_launches (c : Nat) (r : Recorder) : (s.putRecorder c r).launches = s.launches := rfl
@[simp] theorem State.putRecorder_queues (c : Nat) (r : Recorder) : (s.putRecorder c r).queues = s.queues := rfl
@[simp] theorem State.putRecorder_ctxs (c : Nat) (r : Recorder) : (s.putRecorder c r).ctxs = s.ctxs := rfl
@[simp] theorem State.putRecorder_quarters (c : Nat) (r : Recorder) : (s.putRecorder c r).quarters = s.quarters := rfl
@[simp] theorem State.putRecorder_waits (c : Nat) (r : Recorder) : (s.putRecorder c r).waits = s.waits := rfl
@[simp] theorem State.putRecorder_engines (c : Nat) (r : Recorder) : (s.putRecorder c r).engines = s.engines := rfl
@[simp] theorem State.putRecorder_chunks (c : Nat) (r : Recorder) : (s.putRecorder c r).chunks = s.chunks := rfl
@[simp] theorem State.putRecorder_arrivals (c : Nat) (r : Recorder) : (s.putRecorder c r).arrivals = s.arrivals := rfl
@[simp] theorem State.putRecorder_keystones (c : Nat) (r : Recorder) : (s.putRecorder c r).keystones = s.keystones := rfl
@[simp] theorem State.putRecorder_objTimes (c : Nat) (r : Recorder) : (s.putRecorder c r).objTimes = s.objTimes := rfl
@[simp] theorem State.putRecorder_recorders (c : Nat) (r : Recorder) : (s.putRecorder c r).recorders = Tab.set Recorder.empty s.recorders c r := rfl
@[simp] theorem State.putRecorder_freeze (c : Nat) (r : Recorder) : (s.putRecorder c r).freeze = s.freeze := rfl
@[simp] theorem State.putRecorder_freezeReqs (c : Nat) (r : Recorder) : (s.putRecorder c r).freezeReqs = s.freezeReqs := rfl
@[simp] theorem State.putRecorder_fsn (c : Nat) (r : Recorder) : (s.putRecorder c r).fsn = s.fsn := rfl
@[simp] theorem State.putRecorder_capsule (c : Nat) (r : Recorder) : (s.putRecorder c r).capsule = s.capsule := rfl
@[simp] theorem State.putRecorder_laneCycles (c : Nat) (r : Recorder) : (s.putRecorder c r).laneCycles = s.laneCycles := rfl
@[simp] theorem State.putRecorder_host (c : Nat) (r : Recorder) : (s.putRecorder c r).host = s.host := rfl
@[simp] theorem State.putRecorder_swaps (c : Nat) (r : Recorder) : (s.putRecorder c r).swaps = s.swaps := rfl
@[simp] theorem State.putRecorder_migrations (c : Nat) (r : Recorder) : (s.putRecorder c r).migrations = s.migrations := rfl
@[simp] theorem State.putRecorder_keys (c : Nat) (r : Recorder) : (s.putRecorder c r).keys = s.keys := rfl
@[simp] theorem State.putRecorder_keyGens (c : Nat) (r : Recorder) : (s.putRecorder c r).keyGens = s.keyGens := rfl
@[simp] theorem State.putRecorder_dram (c : Nat) (r : Recorder) : (s.putRecorder c r).dram = s.dram := rfl
@[simp] theorem State.putRecorder_flows (c : Nat) (r : Recorder) : (s.putRecorder c r).flows = s.flows := rfl
@[simp] theorem State.putRecorder_dramSlot (c : Nat) (r : Recorder) : (s.putRecorder c r).dramSlot = s.dramSlot := rfl
@[simp] theorem State.putRecorder_failedChannels (c : Nat) (r : Recorder) : (s.putRecorder c r).failedChannels = s.failedChannels := rfl
@[simp] theorem State.putRecorder_ticks (c : Nat) (r : Recorder) : (s.putRecorder c r).ticks = s.ticks := rfl
@[simp] theorem State.putRecorder_lcFlushed (c : Nat) (r : Recorder) : (s.putRecorder c r).lcFlushed = s.lcFlushed := rfl
@[simp] theorem State.putRecorder_lastQueue (c : Nat) (r : Recorder) : (s.putRecorder c r).lastQueue = s.lastQueue := rfl
@[simp] theorem State.putRecorder_fresh (c : Nat) (r : Recorder) : (s.putRecorder c r).fresh = s.fresh := rfl

/-! ### putHome -/

@[simp] theorem State.putHome_turn (l : Nat) (h : HomeLine) : (s.putHome l h).turn = s.turn := rfl
@[simp] theorem State.putHome_now (l : Nat) (h : HomeLine) : (s.putHome l h).now = s.now := rfl
@[simp] theorem State.putHome_elapsed (l : Nat) (h : HomeLine) : (s.putHome l h).elapsed = s.elapsed := rfl
@[simp] theorem State.putHome_focus (l : Nat) (h : HomeLine) : (s.putHome l h).focus = s.focus := rfl
@[simp] theorem State.putHome_event (l : Nat) (h : HomeLine) : (s.putHome l h).event = s.event := rfl
@[simp] theorem State.putHome_part (l : Nat) (h : HomeLine) : (s.putHome l h).part = s.part := rfl
@[simp] theorem State.putHome_mgmt (l : Nat) (h : HomeLine) : (s.putHome l h).mgmt = s.mgmt := rfl
@[simp] theorem State.putHome_sys (l : Nat) (h : HomeLine) : (s.putHome l h).sys = s.sys := rfl
@[simp] theorem State.putHome_mem (l : Nat) (h : HomeLine) : (s.putHome l h).mem = { s.mem with homes := Tab.set (s.freshHome l) s.mem.homes l h } := rfl
@[simp] theorem State.putHome_warps (l : Nat) (h : HomeLine) : (s.putHome l h).warps = s.warps := rfl
@[simp] theorem State.putHome_blocks (l : Nat) (h : HomeLine) : (s.putHome l h).blocks = s.blocks := rfl
@[simp] theorem State.putHome_launches (l : Nat) (h : HomeLine) : (s.putHome l h).launches = s.launches := rfl
@[simp] theorem State.putHome_queues (l : Nat) (h : HomeLine) : (s.putHome l h).queues = s.queues := rfl
@[simp] theorem State.putHome_ctxs (l : Nat) (h : HomeLine) : (s.putHome l h).ctxs = s.ctxs := rfl
@[simp] theorem State.putHome_quarters (l : Nat) (h : HomeLine) : (s.putHome l h).quarters = s.quarters := rfl
@[simp] theorem State.putHome_waits (l : Nat) (h : HomeLine) : (s.putHome l h).waits = s.waits := rfl
@[simp] theorem State.putHome_engines (l : Nat) (h : HomeLine) : (s.putHome l h).engines = s.engines := rfl
@[simp] theorem State.putHome_chunks (l : Nat) (h : HomeLine) : (s.putHome l h).chunks = s.chunks := rfl
@[simp] theorem State.putHome_arrivals (l : Nat) (h : HomeLine) : (s.putHome l h).arrivals = s.arrivals := rfl
@[simp] theorem State.putHome_keystones (l : Nat) (h : HomeLine) : (s.putHome l h).keystones = s.keystones := rfl
@[simp] theorem State.putHome_objTimes (l : Nat) (h : HomeLine) : (s.putHome l h).objTimes = s.objTimes := rfl
@[simp] theorem State.putHome_recorders (l : Nat) (h : HomeLine) : (s.putHome l h).recorders = s.recorders := rfl
@[simp] theorem State.putHome_freeze (l : Nat) (h : HomeLine) : (s.putHome l h).freeze = s.freeze := rfl
@[simp] theorem State.putHome_freezeReqs (l : Nat) (h : HomeLine) : (s.putHome l h).freezeReqs = s.freezeReqs := rfl
@[simp] theorem State.putHome_fsn (l : Nat) (h : HomeLine) : (s.putHome l h).fsn = s.fsn := rfl
@[simp] theorem State.putHome_capsule (l : Nat) (h : HomeLine) : (s.putHome l h).capsule = s.capsule := rfl
@[simp] theorem State.putHome_laneCycles (l : Nat) (h : HomeLine) : (s.putHome l h).laneCycles = s.laneCycles := rfl
@[simp] theorem State.putHome_host (l : Nat) (h : HomeLine) : (s.putHome l h).host = s.host := rfl
@[simp] theorem State.putHome_swaps (l : Nat) (h : HomeLine) : (s.putHome l h).swaps = s.swaps := rfl
@[simp] theorem State.putHome_migrations (l : Nat) (h : HomeLine) : (s.putHome l h).migrations = s.migrations := rfl
@[simp] theorem State.putHome_keys (l : Nat) (h : HomeLine) : (s.putHome l h).keys = s.keys := rfl
@[simp] theorem State.putHome_keyGens (l : Nat) (h : HomeLine) : (s.putHome l h).keyGens = s.keyGens := rfl
@[simp] theorem State.putHome_dram (l : Nat) (h : HomeLine) : (s.putHome l h).dram = s.dram := rfl
@[simp] theorem State.putHome_flows (l : Nat) (h : HomeLine) : (s.putHome l h).flows = s.flows := rfl
@[simp] theorem State.putHome_dramSlot (l : Nat) (h : HomeLine) : (s.putHome l h).dramSlot = s.dramSlot := rfl
@[simp] theorem State.putHome_failedChannels (l : Nat) (h : HomeLine) : (s.putHome l h).failedChannels = s.failedChannels := rfl
@[simp] theorem State.putHome_ticks (l : Nat) (h : HomeLine) : (s.putHome l h).ticks = s.ticks := rfl
@[simp] theorem State.putHome_lcFlushed (l : Nat) (h : HomeLine) : (s.putHome l h).lcFlushed = s.lcFlushed := rfl
@[simp] theorem State.putHome_lastQueue (l : Nat) (h : HomeLine) : (s.putHome l h).lastQueue = s.lastQueue := rfl
@[simp] theorem State.putHome_fresh (l : Nat) (h : HomeLine) : (s.putHome l h).fresh = s.fresh := rfl

/-! ### putCopy -/

@[simp] theorem State.putCopy_turn (p l : Nat) (c : Copy) : (s.putCopy p l c).turn = s.turn := rfl
@[simp] theorem State.putCopy_now (p l : Nat) (c : Copy) : (s.putCopy p l c).now = s.now := rfl
@[simp] theorem State.putCopy_elapsed (p l : Nat) (c : Copy) : (s.putCopy p l c).elapsed = s.elapsed := rfl
@[simp] theorem State.putCopy_focus (p l : Nat) (c : Copy) : (s.putCopy p l c).focus = s.focus := rfl
@[simp] theorem State.putCopy_event (p l : Nat) (c : Copy) : (s.putCopy p l c).event = s.event := rfl
@[simp] theorem State.putCopy_part (p l : Nat) (c : Copy) : (s.putCopy p l c).part = s.part := rfl
@[simp] theorem State.putCopy_mgmt (p l : Nat) (c : Copy) : (s.putCopy p l c).mgmt = s.mgmt := rfl
@[simp] theorem State.putCopy_sys (p l : Nat) (c : Copy) : (s.putCopy p l c).sys = s.sys := rfl
@[simp] theorem State.putCopy_mem (p l : Nat) (c : Copy) : (s.putCopy p l c).mem = { s.mem with copies := Tab.put s.mem.copies (copyKey p l) c } := rfl
@[simp] theorem State.putCopy_warps (p l : Nat) (c : Copy) : (s.putCopy p l c).warps = s.warps := rfl
@[simp] theorem State.putCopy_blocks (p l : Nat) (c : Copy) : (s.putCopy p l c).blocks = s.blocks := rfl
@[simp] theorem State.putCopy_launches (p l : Nat) (c : Copy) : (s.putCopy p l c).launches = s.launches := rfl
@[simp] theorem State.putCopy_queues (p l : Nat) (c : Copy) : (s.putCopy p l c).queues = s.queues := rfl
@[simp] theorem State.putCopy_ctxs (p l : Nat) (c : Copy) : (s.putCopy p l c).ctxs = s.ctxs := rfl
@[simp] theorem State.putCopy_quarters (p l : Nat) (c : Copy) : (s.putCopy p l c).quarters = s.quarters := rfl
@[simp] theorem State.putCopy_waits (p l : Nat) (c : Copy) : (s.putCopy p l c).waits = s.waits := rfl
@[simp] theorem State.putCopy_engines (p l : Nat) (c : Copy) : (s.putCopy p l c).engines = s.engines := rfl
@[simp] theorem State.putCopy_chunks (p l : Nat) (c : Copy) : (s.putCopy p l c).chunks = s.chunks := rfl
@[simp] theorem State.putCopy_arrivals (p l : Nat) (c : Copy) : (s.putCopy p l c).arrivals = s.arrivals := rfl
@[simp] theorem State.putCopy_keystones (p l : Nat) (c : Copy) : (s.putCopy p l c).keystones = s.keystones := rfl
@[simp] theorem State.putCopy_objTimes (p l : Nat) (c : Copy) : (s.putCopy p l c).objTimes = s.objTimes := rfl
@[simp] theorem State.putCopy_recorders (p l : Nat) (c : Copy) : (s.putCopy p l c).recorders = s.recorders := rfl
@[simp] theorem State.putCopy_freeze (p l : Nat) (c : Copy) : (s.putCopy p l c).freeze = s.freeze := rfl
@[simp] theorem State.putCopy_freezeReqs (p l : Nat) (c : Copy) : (s.putCopy p l c).freezeReqs = s.freezeReqs := rfl
@[simp] theorem State.putCopy_fsn (p l : Nat) (c : Copy) : (s.putCopy p l c).fsn = s.fsn := rfl
@[simp] theorem State.putCopy_capsule (p l : Nat) (c : Copy) : (s.putCopy p l c).capsule = s.capsule := rfl
@[simp] theorem State.putCopy_laneCycles (p l : Nat) (c : Copy) : (s.putCopy p l c).laneCycles = s.laneCycles := rfl
@[simp] theorem State.putCopy_host (p l : Nat) (c : Copy) : (s.putCopy p l c).host = s.host := rfl
@[simp] theorem State.putCopy_swaps (p l : Nat) (c : Copy) : (s.putCopy p l c).swaps = s.swaps := rfl
@[simp] theorem State.putCopy_migrations (p l : Nat) (c : Copy) : (s.putCopy p l c).migrations = s.migrations := rfl
@[simp] theorem State.putCopy_keys (p l : Nat) (c : Copy) : (s.putCopy p l c).keys = s.keys := rfl
@[simp] theorem State.putCopy_keyGens (p l : Nat) (c : Copy) : (s.putCopy p l c).keyGens = s.keyGens := rfl
@[simp] theorem State.putCopy_dram (p l : Nat) (c : Copy) : (s.putCopy p l c).dram = s.dram := rfl
@[simp] theorem State.putCopy_flows (p l : Nat) (c : Copy) : (s.putCopy p l c).flows = s.flows := rfl
@[simp] theorem State.putCopy_dramSlot (p l : Nat) (c : Copy) : (s.putCopy p l c).dramSlot = s.dramSlot := rfl
@[simp] theorem State.putCopy_failedChannels (p l : Nat) (c : Copy) : (s.putCopy p l c).failedChannels = s.failedChannels := rfl
@[simp] theorem State.putCopy_ticks (p l : Nat) (c : Copy) : (s.putCopy p l c).ticks = s.ticks := rfl
@[simp] theorem State.putCopy_lcFlushed (p l : Nat) (c : Copy) : (s.putCopy p l c).lcFlushed = s.lcFlushed := rfl
@[simp] theorem State.putCopy_lastQueue (p l : Nat) (c : Copy) : (s.putCopy p l c).lastQueue = s.lastQueue := rfl
@[simp] theorem State.putCopy_fresh (p l : Nat) (c : Copy) : (s.putCopy p l c).fresh = s.fresh := rfl

/-! ### dropCopy -/

@[simp] theorem State.dropCopy_turn (p l : Nat) : (s.dropCopy p l).turn = s.turn := rfl
@[simp] theorem State.dropCopy_now (p l : Nat) : (s.dropCopy p l).now = s.now := rfl
@[simp] theorem State.dropCopy_elapsed (p l : Nat) : (s.dropCopy p l).elapsed = s.elapsed := rfl
@[simp] theorem State.dropCopy_focus (p l : Nat) : (s.dropCopy p l).focus = s.focus := rfl
@[simp] theorem State.dropCopy_event (p l : Nat) : (s.dropCopy p l).event = s.event := rfl
@[simp] theorem State.dropCopy_part (p l : Nat) : (s.dropCopy p l).part = s.part := rfl
@[simp] theorem State.dropCopy_mgmt (p l : Nat) : (s.dropCopy p l).mgmt = s.mgmt := rfl
@[simp] theorem State.dropCopy_sys (p l : Nat) : (s.dropCopy p l).sys = s.sys := rfl
@[simp] theorem State.dropCopy_mem (p l : Nat) : (s.dropCopy p l).mem = { s.mem with copies := Tab.del s.mem.copies (copyKey p l) } := rfl
@[simp] theorem State.dropCopy_warps (p l : Nat) : (s.dropCopy p l).warps = s.warps := rfl
@[simp] theorem State.dropCopy_blocks (p l : Nat) : (s.dropCopy p l).blocks = s.blocks := rfl
@[simp] theorem State.dropCopy_launches (p l : Nat) : (s.dropCopy p l).launches = s.launches := rfl
@[simp] theorem State.dropCopy_queues (p l : Nat) : (s.dropCopy p l).queues = s.queues := rfl
@[simp] theorem State.dropCopy_ctxs (p l : Nat) : (s.dropCopy p l).ctxs = s.ctxs := rfl
@[simp] theorem State.dropCopy_quarters (p l : Nat) : (s.dropCopy p l).quarters = s.quarters := rfl
@[simp] theorem State.dropCopy_waits (p l : Nat) : (s.dropCopy p l).waits = s.waits := rfl
@[simp] theorem State.dropCopy_engines (p l : Nat) : (s.dropCopy p l).engines = s.engines := rfl
@[simp] theorem State.dropCopy_chunks (p l : Nat) : (s.dropCopy p l).chunks = s.chunks := rfl
@[simp] theorem State.dropCopy_arrivals (p l : Nat) : (s.dropCopy p l).arrivals = s.arrivals := rfl
@[simp] theorem State.dropCopy_keystones (p l : Nat) : (s.dropCopy p l).keystones = s.keystones := rfl
@[simp] theorem State.dropCopy_objTimes (p l : Nat) : (s.dropCopy p l).objTimes = s.objTimes := rfl
@[simp] theorem State.dropCopy_recorders (p l : Nat) : (s.dropCopy p l).recorders = s.recorders := rfl
@[simp] theorem State.dropCopy_freeze (p l : Nat) : (s.dropCopy p l).freeze = s.freeze := rfl
@[simp] theorem State.dropCopy_freezeReqs (p l : Nat) : (s.dropCopy p l).freezeReqs = s.freezeReqs := rfl
@[simp] theorem State.dropCopy_fsn (p l : Nat) : (s.dropCopy p l).fsn = s.fsn := rfl
@[simp] theorem State.dropCopy_capsule (p l : Nat) : (s.dropCopy p l).capsule = s.capsule := rfl
@[simp] theorem State.dropCopy_laneCycles (p l : Nat) : (s.dropCopy p l).laneCycles = s.laneCycles := rfl
@[simp] theorem State.dropCopy_host (p l : Nat) : (s.dropCopy p l).host = s.host := rfl
@[simp] theorem State.dropCopy_swaps (p l : Nat) : (s.dropCopy p l).swaps = s.swaps := rfl
@[simp] theorem State.dropCopy_migrations (p l : Nat) : (s.dropCopy p l).migrations = s.migrations := rfl
@[simp] theorem State.dropCopy_keys (p l : Nat) : (s.dropCopy p l).keys = s.keys := rfl
@[simp] theorem State.dropCopy_keyGens (p l : Nat) : (s.dropCopy p l).keyGens = s.keyGens := rfl
@[simp] theorem State.dropCopy_dram (p l : Nat) : (s.dropCopy p l).dram = s.dram := rfl
@[simp] theorem State.dropCopy_flows (p l : Nat) : (s.dropCopy p l).flows = s.flows := rfl
@[simp] theorem State.dropCopy_dramSlot (p l : Nat) : (s.dropCopy p l).dramSlot = s.dramSlot := rfl
@[simp] theorem State.dropCopy_failedChannels (p l : Nat) : (s.dropCopy p l).failedChannels = s.failedChannels := rfl
@[simp] theorem State.dropCopy_ticks (p l : Nat) : (s.dropCopy p l).ticks = s.ticks := rfl
@[simp] theorem State.dropCopy_lcFlushed (p l : Nat) : (s.dropCopy p l).lcFlushed = s.lcFlushed := rfl
@[simp] theorem State.dropCopy_lastQueue (p l : Nat) : (s.dropCopy p l).lastQueue = s.lastQueue := rfl
@[simp] theorem State.dropCopy_fresh (p l : Nat) : (s.dropCopy p l).fresh = s.fresh := rfl

/-! ### putScratch -/

@[simp] theorem State.putScratch_turn (l : Nat) (x : ScratchLine) : (s.putScratch l x).turn = s.turn := rfl
@[simp] theorem State.putScratch_now (l : Nat) (x : ScratchLine) : (s.putScratch l x).now = s.now := rfl
@[simp] theorem State.putScratch_elapsed (l : Nat) (x : ScratchLine) : (s.putScratch l x).elapsed = s.elapsed := rfl
@[simp] theorem State.putScratch_focus (l : Nat) (x : ScratchLine) : (s.putScratch l x).focus = s.focus := rfl
@[simp] theorem State.putScratch_event (l : Nat) (x : ScratchLine) : (s.putScratch l x).event = s.event := rfl
@[simp] theorem State.putScratch_part (l : Nat) (x : ScratchLine) : (s.putScratch l x).part = s.part := rfl
@[simp] theorem State.putScratch_mgmt (l : Nat) (x : ScratchLine) : (s.putScratch l x).mgmt = s.mgmt := rfl
@[simp] theorem State.putScratch_sys (l : Nat) (x : ScratchLine) : (s.putScratch l x).sys = s.sys := rfl
@[simp] theorem State.putScratch_mem (l : Nat) (x : ScratchLine) : (s.putScratch l x).mem = { s.mem with scratch := Tab.set ScratchLine.fresh s.mem.scratch l x } := rfl
@[simp] theorem State.putScratch_warps (l : Nat) (x : ScratchLine) : (s.putScratch l x).warps = s.warps := rfl
@[simp] theorem State.putScratch_blocks (l : Nat) (x : ScratchLine) : (s.putScratch l x).blocks = s.blocks := rfl
@[simp] theorem State.putScratch_launches (l : Nat) (x : ScratchLine) : (s.putScratch l x).launches = s.launches := rfl
@[simp] theorem State.putScratch_queues (l : Nat) (x : ScratchLine) : (s.putScratch l x).queues = s.queues := rfl
@[simp] theorem State.putScratch_ctxs (l : Nat) (x : ScratchLine) : (s.putScratch l x).ctxs = s.ctxs := rfl
@[simp] theorem State.putScratch_quarters (l : Nat) (x : ScratchLine) : (s.putScratch l x).quarters = s.quarters := rfl
@[simp] theorem State.putScratch_waits (l : Nat) (x : ScratchLine) : (s.putScratch l x).waits = s.waits := rfl
@[simp] theorem State.putScratch_engines (l : Nat) (x : ScratchLine) : (s.putScratch l x).engines = s.engines := rfl
@[simp] theorem State.putScratch_chunks (l : Nat) (x : ScratchLine) : (s.putScratch l x).chunks = s.chunks := rfl
@[simp] theorem State.putScratch_arrivals (l : Nat) (x : ScratchLine) : (s.putScratch l x).arrivals = s.arrivals := rfl
@[simp] theorem State.putScratch_keystones (l : Nat) (x : ScratchLine) : (s.putScratch l x).keystones = s.keystones := rfl
@[simp] theorem State.putScratch_objTimes (l : Nat) (x : ScratchLine) : (s.putScratch l x).objTimes = s.objTimes := rfl
@[simp] theorem State.putScratch_recorders (l : Nat) (x : ScratchLine) : (s.putScratch l x).recorders = s.recorders := rfl
@[simp] theorem State.putScratch_freeze (l : Nat) (x : ScratchLine) : (s.putScratch l x).freeze = s.freeze := rfl
@[simp] theorem State.putScratch_freezeReqs (l : Nat) (x : ScratchLine) : (s.putScratch l x).freezeReqs = s.freezeReqs := rfl
@[simp] theorem State.putScratch_fsn (l : Nat) (x : ScratchLine) : (s.putScratch l x).fsn = s.fsn := rfl
@[simp] theorem State.putScratch_capsule (l : Nat) (x : ScratchLine) : (s.putScratch l x).capsule = s.capsule := rfl
@[simp] theorem State.putScratch_laneCycles (l : Nat) (x : ScratchLine) : (s.putScratch l x).laneCycles = s.laneCycles := rfl
@[simp] theorem State.putScratch_host (l : Nat) (x : ScratchLine) : (s.putScratch l x).host = s.host := rfl
@[simp] theorem State.putScratch_swaps (l : Nat) (x : ScratchLine) : (s.putScratch l x).swaps = s.swaps := rfl
@[simp] theorem State.putScratch_migrations (l : Nat) (x : ScratchLine) : (s.putScratch l x).migrations = s.migrations := rfl
@[simp] theorem State.putScratch_keys (l : Nat) (x : ScratchLine) : (s.putScratch l x).keys = s.keys := rfl
@[simp] theorem State.putScratch_keyGens (l : Nat) (x : ScratchLine) : (s.putScratch l x).keyGens = s.keyGens := rfl
@[simp] theorem State.putScratch_dram (l : Nat) (x : ScratchLine) : (s.putScratch l x).dram = s.dram := rfl
@[simp] theorem State.putScratch_flows (l : Nat) (x : ScratchLine) : (s.putScratch l x).flows = s.flows := rfl
@[simp] theorem State.putScratch_dramSlot (l : Nat) (x : ScratchLine) : (s.putScratch l x).dramSlot = s.dramSlot := rfl
@[simp] theorem State.putScratch_failedChannels (l : Nat) (x : ScratchLine) : (s.putScratch l x).failedChannels = s.failedChannels := rfl
@[simp] theorem State.putScratch_ticks (l : Nat) (x : ScratchLine) : (s.putScratch l x).ticks = s.ticks := rfl
@[simp] theorem State.putScratch_lcFlushed (l : Nat) (x : ScratchLine) : (s.putScratch l x).lcFlushed = s.lcFlushed := rfl
@[simp] theorem State.putScratch_lastQueue (l : Nat) (x : ScratchLine) : (s.putScratch l x).lastQueue = s.lastQueue := rfl
@[simp] theorem State.putScratch_fresh (l : Nat) (x : ScratchLine) : (s.putScratch l x).fresh = s.fresh := rfl

/-! ### setClock -/

@[simp] theorem State.setClock_turn (k : Nat) (t : LTime) : (s.setClock k t).turn = s.turn := rfl
@[simp] theorem State.setClock_now (k : Nat) (t : LTime) : (s.setClock k t).now = s.now := rfl
@[simp] theorem State.setClock_elapsed (k : Nat) (t : LTime) : (s.setClock k t).elapsed = s.elapsed := rfl
@[simp] theorem State.setClock_focus (k : Nat) (t : LTime) : (s.setClock k t).focus = s.focus := rfl
@[simp] theorem State.setClock_event (k : Nat) (t : LTime) : (s.setClock k t).event = s.event := rfl
@[simp] theorem State.setClock_part (k : Nat) (t : LTime) : (s.setClock k t).part = s.part := rfl
@[simp] theorem State.setClock_mgmt (k : Nat) (t : LTime) : (s.setClock k t).mgmt = s.mgmt := rfl
@[simp] theorem State.setClock_sys (k : Nat) (t : LTime) : (s.setClock k t).sys = s.sys := rfl
@[simp] theorem State.setClock_mem (k : Nat) (t : LTime) : (s.setClock k t).mem = { s.mem with clocks := Tab.set 0 s.mem.clocks k t } := rfl
@[simp] theorem State.setClock_warps (k : Nat) (t : LTime) : (s.setClock k t).warps = s.warps := rfl
@[simp] theorem State.setClock_blocks (k : Nat) (t : LTime) : (s.setClock k t).blocks = s.blocks := rfl
@[simp] theorem State.setClock_launches (k : Nat) (t : LTime) : (s.setClock k t).launches = s.launches := rfl
@[simp] theorem State.setClock_queues (k : Nat) (t : LTime) : (s.setClock k t).queues = s.queues := rfl
@[simp] theorem State.setClock_ctxs (k : Nat) (t : LTime) : (s.setClock k t).ctxs = s.ctxs := rfl
@[simp] theorem State.setClock_quarters (k : Nat) (t : LTime) : (s.setClock k t).quarters = s.quarters := rfl
@[simp] theorem State.setClock_waits (k : Nat) (t : LTime) : (s.setClock k t).waits = s.waits := rfl
@[simp] theorem State.setClock_engines (k : Nat) (t : LTime) : (s.setClock k t).engines = s.engines := rfl
@[simp] theorem State.setClock_chunks (k : Nat) (t : LTime) : (s.setClock k t).chunks = s.chunks := rfl
@[simp] theorem State.setClock_arrivals (k : Nat) (t : LTime) : (s.setClock k t).arrivals = s.arrivals := rfl
@[simp] theorem State.setClock_keystones (k : Nat) (t : LTime) : (s.setClock k t).keystones = s.keystones := rfl
@[simp] theorem State.setClock_objTimes (k : Nat) (t : LTime) : (s.setClock k t).objTimes = s.objTimes := rfl
@[simp] theorem State.setClock_recorders (k : Nat) (t : LTime) : (s.setClock k t).recorders = s.recorders := rfl
@[simp] theorem State.setClock_freeze (k : Nat) (t : LTime) : (s.setClock k t).freeze = s.freeze := rfl
@[simp] theorem State.setClock_freezeReqs (k : Nat) (t : LTime) : (s.setClock k t).freezeReqs = s.freezeReqs := rfl
@[simp] theorem State.setClock_fsn (k : Nat) (t : LTime) : (s.setClock k t).fsn = s.fsn := rfl
@[simp] theorem State.setClock_capsule (k : Nat) (t : LTime) : (s.setClock k t).capsule = s.capsule := rfl
@[simp] theorem State.setClock_laneCycles (k : Nat) (t : LTime) : (s.setClock k t).laneCycles = s.laneCycles := rfl
@[simp] theorem State.setClock_host (k : Nat) (t : LTime) : (s.setClock k t).host = s.host := rfl
@[simp] theorem State.setClock_swaps (k : Nat) (t : LTime) : (s.setClock k t).swaps = s.swaps := rfl
@[simp] theorem State.setClock_migrations (k : Nat) (t : LTime) : (s.setClock k t).migrations = s.migrations := rfl
@[simp] theorem State.setClock_keys (k : Nat) (t : LTime) : (s.setClock k t).keys = s.keys := rfl
@[simp] theorem State.setClock_keyGens (k : Nat) (t : LTime) : (s.setClock k t).keyGens = s.keyGens := rfl
@[simp] theorem State.setClock_dram (k : Nat) (t : LTime) : (s.setClock k t).dram = s.dram := rfl
@[simp] theorem State.setClock_flows (k : Nat) (t : LTime) : (s.setClock k t).flows = s.flows := rfl
@[simp] theorem State.setClock_dramSlot (k : Nat) (t : LTime) : (s.setClock k t).dramSlot = s.dramSlot := rfl
@[simp] theorem State.setClock_failedChannels (k : Nat) (t : LTime) : (s.setClock k t).failedChannels = s.failedChannels := rfl
@[simp] theorem State.setClock_ticks (k : Nat) (t : LTime) : (s.setClock k t).ticks = s.ticks := rfl
@[simp] theorem State.setClock_lcFlushed (k : Nat) (t : LTime) : (s.setClock k t).lcFlushed = s.lcFlushed := rfl
@[simp] theorem State.setClock_lastQueue (k : Nat) (t : LTime) : (s.setClock k t).lastQueue = s.lastQueue := rfl
@[simp] theorem State.setClock_fresh (k : Nat) (t : LTime) : (s.setClock k t).fresh = s.fresh := rfl

end Sys2Proof.Machine
end

