-- ==== Sys2Proof/Laws/Table.lean ====
section
/-! SUPPORT. What reading a table gives after each operation on it, and that every operation on memory keeps its canonical
form. -/

namespace Sys2Proof.Machine

open Sys2Proof

variable {α : Type}

/-! ### Reading after writing -/

theorem Tab.get?_put (t : Tab α) (a b : Nat) (x : α) : Tab.get? (Tab.put t a x) b = if b = a then some x else Tab.get? t b := by
  induction t with
  | nil => simp only [Tab.put, Tab.get?]
  | cons e t ih =>
    obtain ⟨k, v⟩ := e
    simp only [Tab.put]
    by_cases h1 : a < k
    · simp [h1, Tab.get?]
    · by_cases h2 : a = k
      · subst h2; by_cases h3 : b = a <;> simp [Tab.get?, h3]
      · by_cases h3 : b = k
        · subst h3; simp [h1, h2, Tab.get?, Ne.symm h2]
        · simp [h1, h2, h3, Tab.get?, ih]

theorem Tab.get?_del (t : Tab α) (a b : Nat) : Tab.get? (Tab.del t a) b = if b = a then none else Tab.get? t b := by
  induction t with
  | nil => simp [Tab.del, Tab.get?]
  | cons e t ih =>
    obtain ⟨k, v⟩ := e
    by_cases h : a = k
    · subst h
      simp only [Tab.del, if_true, ih]
      by_cases h3 : b = a <;> simp [h3, Tab.get?]
    · by_cases h3 : b = k
      · subst h3; simp [Tab.del, h, Tab.get?, Ne.symm h]
      · simp [Tab.del, h, h3, Tab.get?, ih]

theorem Tab.get?_modify (t : Tab α) (a b : Nat) (f : α → α) :
    Tab.get? (Tab.modify t a f) b = if b = a then (Tab.get? t a).map f else Tab.get? t b := by
  unfold Tab.modify
  cases h : Tab.get? t a with
  | none => by_cases e : b = a <;> simp [e, h]
  | some x => simp [Tab.get?_put]

theorem Tab.getD_set [DecidableEq α] (d : α) (t : Tab α) (a b : Nat) (x : α) :
    Tab.getD (Tab.set d t a x) b d = if b = a then x else Tab.getD t b d := by
  unfold Tab.getD Tab.set
  by_cases h : x = d
  · subst h; by_cases e : b = a <;> simp [Tab.get?_del, e]
  · by_cases e : b = a <;> simp [h, Tab.get?_put, e]

theorem Tab.getD_put (t : Tab α) (a b : Nat) (x d : α) : Tab.getD (Tab.put t a x) b d = if b = a then x else Tab.getD t b d := by
  unfold Tab.getD
  by_cases e : b = a <;> simp [Tab.get?_put, e]

/-! ### The canonical form -/

section canon
variable [DecidableEq α]

/-- A bound below a key. -/
def above (lo : Option Nat) (k : Nat) : Bool := match lo with | none => true | some l => decide (l < k)

theorem Tab.canonFrom_cons (d : α) (lo : Option Nat) (k : Nat) (v : α) (t : Tab α) :
    Tab.canonFrom d lo ((k, v) :: t) = (above lo k && decide (v ≠ d) && Tab.canonFrom d (some k) t) := rfl

theorem Tab.canonFrom_weaken (d : α) (lo : Option Nat) (k : Nat) (t : Tab α) (hk : above lo k = true)
    (h : Tab.canonFrom d (some k) t = true) : Tab.canonFrom d lo t = true := by
  cases t with
  | nil => rfl
  | cons e t =>
    obtain ⟨j, v⟩ := e
    simp only [Tab.canonFrom_cons, Bool.and_eq_true] at h ⊢
    refine ⟨⟨?_, h.1.2⟩, h.2⟩
    cases lo with
    | none => rfl
    | some l => simp [above] at *; omega

theorem Tab.canonFrom_put (d : α) (lo : Option Nat) (t : Tab α) (a : Nat) (x : α) (hx : x ≠ d) (ha : above lo a = true)
    (h : Tab.canonFrom d lo t = true) : Tab.canonFrom d lo (Tab.put t a x) = true := by
  induction t generalizing lo with
  | nil => simp [Tab.put, Tab.canonFrom_cons, ha, hx, Tab.canonFrom]
  | cons e t ih =>
    obtain ⟨k, v⟩ := e
    simp only [Tab.canonFrom_cons, Bool.and_eq_true] at h
    obtain ⟨⟨h1, h2⟩, h3⟩ := h
    unfold Tab.put
    split
    · rename_i hlt
      simp only [Tab.canonFrom_cons, Bool.and_eq_true]
      exact ⟨⟨ha, by simp [hx]⟩, ⟨by simp [above, hlt], h2⟩, h3⟩
    · split
      · rename_i heq
        subst heq
        simp [Tab.canonFrom_cons, ha, hx, h3]
      · rename_i hge hne
        simp only [Tab.canonFrom_cons, Bool.and_eq_true]
        exact ⟨⟨h1, h2⟩, ih (some k) (by simp [above]; omega) h3⟩

theorem Tab.canonFrom_del (d : α) (lo : Option Nat) (t : Tab α) (a : Nat) (h : Tab.canonFrom d lo t = true) :
    Tab.canonFrom d lo (Tab.del t a) = true := by
  induction t generalizing lo with
  | nil => rfl
  | cons e t ih =>
    obtain ⟨k, v⟩ := e
    simp only [Tab.canonFrom_cons, Bool.and_eq_true] at h
    obtain ⟨⟨h1, h2⟩, h3⟩ := h
    unfold Tab.del
    split
    · exact Tab.canonFrom_weaken d lo k _ h1 (ih (some k) h3)
    · simp only [Tab.canonFrom_cons, Bool.and_eq_true]
      exact ⟨⟨h1, h2⟩, ih (some k) h3⟩

theorem Tab.canon_set (d : α) (t : Tab α) (a : Nat) (x : α) (h : Tab.canon d t = true) : Tab.canon d (Tab.set d t a x) = true := by
  unfold Tab.canon Tab.set at *
  split
  · exact Tab.canonFrom_del d none t a h
  · exact Tab.canonFrom_put d none t a x ‹_› rfl h

end canon

/-! ### Memory -/

theorem Memory.byte_setByte (m : Memory) (a b : Nat) (x : Byte) :
    (m.setByte a x).byte b = if b = a then x else m.byte b := Tab.getD_set unlisted m.bytes a b x

theorem Memory.wf_setByte (m : Memory) (a : Nat) (b : Byte) (h : m.wf = true) : (m.setByte a b).wf = true :=
  Tab.canon_set unlisted m.bytes a b h

theorem Memory.wf_write (m : Memory) (a : Nat) (l : List Byte) (h : m.wf = true) : (m.write a l).wf = true := by
  induction l generalizing m a with
  | nil => exact h
  | cons b l ih => exact ih _ _ (m.wf_setByte a b h)

theorem Memory.wf_writeMasked (m : Memory) (a mask : Nat) (l : List Byte) (h : m.wf = true) : (m.writeMasked a mask l).wf = true := by
  induction l generalizing m a mask with
  | nil => exact h
  | cons b l ih =>
    unfold Memory.writeMasked
    split
    · exact ih _ _ _ (m.wf_setByte a b h)
    · exact ih _ _ _ h

/-- Writing bytes leaves every address outside them as it was. -/
theorem Memory.byte_write_outside (m : Memory) (a : Nat) (l : List Byte) (x : Nat) (h : x < a ∨ a + l.length ≤ x) :
    (m.write a l).byte x = m.byte x := by
  induction l generalizing m a with
  | nil => rfl
  | cons b l ih =>
    unfold Memory.write
    simp only [List.length_cons] at h
    rw [ih _ _ (by omega), Memory.byte_setByte, if_neg (by omega)]

theorem Memory.byte_writeMasked_outside (m : Memory) (a mask : Nat) (l : List Byte) (x : Nat) (h : x < a ∨ a + l.length ≤ x) :
    (m.writeMasked a mask l).byte x = m.byte x := by
  induction l generalizing m a mask with
  | nil => rfl
  | cons b l ih =>
    unfold Memory.writeMasked
    simp only [List.length_cons] at h
    rw [ih _ _ _ (by omega)]
    split
    · rw [Memory.byte_setByte, if_neg (by omega)]
    · rfl

/-- The memory parts that no write of bytes touches. -/
theorem Memory.write_rest (m : Memory) (a : Nat) (l : List Byte) : { m.write a l with bytes := [] } = { m with bytes := [] } := by
  induction l generalizing m a with
  | nil => rfl
  | cons b l ih => exact (ih (m.setByte a b) (a + 1)).trans rfl

end Sys2Proof.Machine
end

