-- ==== Sys2Proof/Laws/Operands.lean ====
section
/-! SUPPORT. What reading a thread, a register or a predicate gives after each operation that changes one. -/

namespace Sys2Proof.Machine

open Sys2Proof

variable (s : State)

/-! ### Warps and threads -/

theorem State.warp?_modWarp (w v : Nat) (f : Warp → Warp) :
    (s.modWarp w f).warp? v = if v = w then (s.warp? w).map f else s.warp? v := Tab.get?_modify s.warps w v f

theorem State.thread?_modThread (m k : Member) (f : Thread → Thread) :
    (s.modThread m f).thread? k = if k = m then (s.thread? m).map f else s.thread? k := by
  unfold State.thread? State.modThread
  rw [State.warp?_modWarp]
  by_cases h : k.wid = m.wid
  · rw [if_pos h, h]
    cases hw : s.warp? m.wid with
    | none => simp
    | some w =>
      simp only [Option.map_some, Option.bind_some, Warp.modThread, Tab.get?_modify]
      by_cases hl : k.lane = m.lane
      · have : k = m := by cases k; cases m; simp_all
        simp [this]
      · have : k ≠ m := fun e => hl (by rw [e])
        simp [hl, this]
  · have : k ≠ m := fun e => h (by rw [e])
    simp [h, this]

/-- A change that a thread's registers do not show. -/
theorem State.reg_modThread (m k : Member) (f : Thread → Thread) (r : Nat) (hf : ∀ t : Thread, (f t).regs = t.regs) :
    (s.modThread m f).reg k r = s.reg k r := by
  unfold State.reg
  rw [State.thread?_modThread]
  by_cases h : k = m
  · subst h; cases hk : s.thread? k <;> simp [Thread.reg, hf]
  · simp [h]

theorem State.pred_modThread (m k : Member) (f : Thread → Thread) (p : Nat) (hf : ∀ t : Thread, (f t).preds = t.preds) :
    (s.modThread m f).pred k p = s.pred k p := by
  unfold State.pred
  rw [State.thread?_modThread]
  by_cases h : k = m
  · subst h; cases hk : s.thread? k <;> simp [Thread.pred, hf]
  · simp [h]

/-! ### Registers -/

theorem Thread.reg_setReg (t : Thread) (r q : Nat) (v : Word) : (t.setReg r v).reg q = if q = r then v else t.reg q :=
  Tab.getD_set 0 t.regs r q v

theorem State.thread?_setReg (m k : Member) (r : Nat) (v : Word) :
    (s.setReg m r v).thread? k = if k = m then (s.thread? m).map (·.setReg r v) else s.thread? k :=
  s.thread?_modThread m k _

theorem State.reg_setReg (m k : Member) (r q : Nat) (v : Word) (hm : (s.thread? m).isSome) :
    (s.setReg m r v).reg k q = if k = m ∧ q = r then v else s.reg k q := by
  unfold State.reg
  rw [State.thread?_setReg]
  by_cases h : k = m
  · subst h
    obtain ⟨t, ht⟩ := Option.isSome_iff_exists.mp hm
    simp [ht, Thread.reg_setReg]
  · simp [h]

theorem State.pred_setReg (m k : Member) (r p : Nat) (v : Word) : (s.setReg m r v).pred k p = s.pred k p :=
  s.pred_modThread m k _ p fun _ => rfl

theorem State.isSome_setReg (m k : Member) (r : Nat) (v : Word) : ((s.setReg m r v).thread? k).isSome = (s.thread? k).isSome := by
  rw [State.thread?_setReg]; by_cases h : k = m <;> simp [h]

/-! ### Predicates -/

theorem State.thread?_setPred (m k : Member) (p : Nat) (v : Bool) :
    (s.setPred m p v).thread? k = if k = m then (s.thread? m).map (·.setPred p v) else s.thread? k :=
  s.thread?_modThread m k _

theorem State.reg_setPred (m k : Member) (r p : Nat) (v : Bool) : (s.setPred m p v).reg k r = s.reg k r :=
  s.reg_modThread m k _ r fun _ => rfl

theorem Thread.pred_setPred (t : Thread) (p q : Nat) (v : Bool) (hp : p < 12) :
    (t.setPred p v).pred q = if q = p then v else t.pred q := by
  unfold Thread.pred Thread.setPred
  by_cases h : q = p
  · subst h
    have : (q == 15) = false := by simp; omega
    cases v <;> simp [this, hp]
  · by_cases hq : q < 12
    · cases v <;> simp [h, hq]
    · have e : ∀ x : BitVec 12, x.getLsbD q = false := fun x => BitVec.getLsbD_of_ge x q (by omega)
      simp [h, e]

end Sys2Proof.Machine
end

