-- ==== Sys2Proof/Laws/Issue.lean ====
section
/-! SUPPORT. What the issue of an instruction comes to, once for each outcome of its own effect, and what the end of an instruction
keeps. -/

namespace Sys2Proof.Machine

open Sys2Proof

/-! ### Kept -/

theorem Kept.refl (s : State) : Kept s s := ⟨rfl, fun _ => rfl, fun _ => rfl, fun _ => rfl, fun _ => rfl, fun _ => rfl⟩

theorem Kept.trans {s t u : State} (a : Kept s t) (b : Kept t u) : Kept s u :=
  ⟨b.rest.trans a.rest, fun x => (b.bytes x).trans (a.bytes x), fun x => (b.warps x).trans (a.warps x),
   fun x => (b.threads x).trans (a.threads x), fun x => (b.quarters x).trans (a.quarters x), fun x => (b.rings x).trans (a.rings x)⟩

theorem Kept.of_modThread (s : State) (m : Member) (f : Thread → Thread) (hf : ∀ t : Thread, (f t).bare = t.bare) :
    Kept s (s.modThread m f) := by
  refine ⟨rfl, fun _ => rfl, fun w => ?_, fun k => ?_, fun _ => rfl, fun _ => rfl⟩
  · unfold State.modThread
    rw [State.warp?_modWarp]
    by_cases h : w = m.wid
    · subst h; rw [if_pos rfl]; cases s.warp? m.wid <;> rfl
    · rw [if_neg h]
  · rw [State.thread?_modThread]
    by_cases h : k = m
    · subst h; rw [if_pos rfl]; cases s.thread? k <;> simp [hf]
    · rw [if_neg h]

theorem Kept.of_modWarp (s : State) (w : Nat) (f : Warp → Warp) (hf : ∀ x : Warp, (f x).bare = x.bare)
    (ht : ∀ x : Warp, (f x).threads = x.threads) : Kept s (s.modWarp w f) := by
  refine ⟨rfl, fun _ => rfl, fun v => ?_, fun k => ?_, fun _ => rfl, fun _ => rfl⟩
  · rw [State.warp?_modWarp]
    by_cases h : v = w
    · subst h; rw [if_pos rfl]; cases s.warp? v <;> simp [hf]
    · rw [if_neg h]
  · unfold State.thread?
    rw [State.warp?_modWarp]
    by_cases h : k.wid = w
    · subst h; rw [if_pos rfl]; cases s.warp? k.wid <;> simp [ht]
    · rw [if_neg h]

theorem State.quarter_modQuarter (s : State) (q r : Nat) (f : Quarter → Quarter) :
    (s.modQuarter q f).quarter r = if r = q then f (s.quarter q) else s.quarter r := Tab.getD_set Quarter.empty s.quarters q r _

theorem Kept.of_freeSlot (s : State) (q : Nat) : Kept s (s.freeSlot q) := by
  refine ⟨rfl, fun _ => rfl, fun _ => rfl, fun _ => rfl, fun r => ?_, fun _ => rfl⟩
  unfold State.freeSlot
  rw [State.quarter_modQuarter]
  by_cases h : r = q
  · subst h; rw [if_pos rfl]; rfl
  · rw [if_neg h]

theorem State.recorder_putRecorder (s : State) (c d : Nat) (r : Recorder) :
    (s.putRecorder c r).recorder d = if d = c then r else s.recorder d := Tab.getD_set Recorder.empty s.recorders c d r

theorem Kept.of_putRecorder (s : State) (c : Nat) (r : Recorder) (h : r.ring = (s.recorder c).ring) : Kept s (s.putRecorder c r) := by
  refine ⟨rfl, fun _ => rfl, fun _ => rfl, fun _ => rfl, fun _ => rfl, fun d => ?_⟩
  rw [State.recorder_putRecorder]
  by_cases e : d = c
  · subst e; rw [if_pos rfl, h]
  · rw [if_neg e]

theorem Kept.of_charge (s : State) (core ctx pc : Nat) (l : List Nat) : Kept s (s.charge core ctx pc l) := by
  unfold State.charge
  cases s.ctx? ctx with
  | none => exact Kept.refl s
  | some c =>
    simp only
    split
    · exact Kept.refl s
    · exact ⟨rfl, fun _ => rfl, fun _ => rfl, fun _ => rfl, fun _ => rfl, fun _ => rfl⟩

/-- A change that keeps nearly everything, made for each of a list. -/
theorem Kept.of_foldl {α : Type} (f : State → α → State) (h : ∀ s x, Kept s (f s x)) (s : State) (l : List α) : Kept s (l.foldl f s) := by
  induction l generalizing s with
  | nil => exact Kept.refl s
  | cons x l ih => exact (h s x).trans (ih (f s x))

theorem Thread.bare_loopEnd (t : Thread) (x : VAddr) (n : Nat) :
    (t.loopEnd x n).1.bare = t.bare ∧ (t.loopEnd x n).1.regs = t.regs ∧ (t.loopEnd x n).1.preds = t.preds := by
  induction n generalizing t x with
  | zero => exact ⟨rfl, rfl, rfl⟩
  | succ n ih =>
    unfold Thread.loopEnd
    cases t.loops with
    | nil => exact ⟨rfl, rfl, rfl⟩
    | cons l rest =>
      simp only
      by_cases h : x = l.stop
      · rw [if_pos h]
        by_cases hc : t.lc l.lcn - 1 ≠ 0
        · rw [if_pos hc]; exact ⟨rfl, rfl, rfl⟩
        · rw [if_neg hc]
          exact ih _ x
      · rw [if_neg h]; exact ⟨rfl, rfl, rfl⟩

/-- What the end of an instruction leaves of a thread: its registers, its predicates, and all that `bare` shows. -/
theorem Thread.complete_keeps (t : Thread) (len : Nat) (target : Option VAddr) (now : Nat) :
    (t.complete len target now).bare = t.bare ∧ (t.complete len target now).regs = t.regs ∧
    (t.complete len target now).preds = t.preds := by
  unfold Thread.complete
  split
  · exact ⟨rfl, rfl, rfl⟩
  · unfold Thread.atRun
    obtain ⟨h1, h2, h3⟩ := t.bare_loopEnd (target.getD (t.pc + BitVec.ofNat 56 len)) 3
    exact ⟨h1, h2, h3⟩

theorem Warp.watched_keeps (w : Warp) (pc : Nat) : (w.watched pc).bare = w.bare ∧ (w.watched pc).threads = w.threads := ⟨rfl, rfl⟩

theorem Kept.of_endSample (s : State) (q : Nat) : Kept s (s.endSample q) := by
  unfold State.endSample
  simp only
  split
  · exact Kept.of_putRecorder s _ _ rfl
  · exact Kept.refl s

/-- The end of an instruction, and of its run, changes only where threads stand. -/
theorem Kept.of_retire (s : State) (e : Env) (next : List (Member × VAddr)) : Kept s (s.retire e next) := by
  unfold State.retire
  simp only
  have h1 := Kept.of_foldl (fun (t : State) m => t.modThread m fun x => x.complete e.len (targetOf next m) s.now)
    (fun t m => Kept.of_modThread t m _ fun x => (x.complete_keeps _ _ _).1) s e.members
  have h2 := Kept.of_foldl (fun (t : State) w => t.modWarp w fun x => x.watched e.pc)
    (fun t w => Kept.of_modWarp t w _ (fun _ => rfl) fun _ => rfl) (e.members.foldl (fun t m => t.modThread m fun x => x.complete e.len (targetOf next m) s.now) s) (warpsOf e.members)
  split
  · exact h1.trans h2
  · exact ((h1.trans h2).trans (Kept.of_endSample _ _)).trans (Kept.of_freeSlot _ _)

/-! ### Registers and predicates -/

/-- What registers and predicates a state shows. -/
def SameRegs (s t : State) : Prop := (∀ m r, t.reg m r = s.reg m r) ∧ ∀ m p, t.pred m p = s.pred m p

theorem SameRegs.trans {s t u : State} (a : SameRegs s t) (b : SameRegs t u) : SameRegs s u :=
  ⟨fun m r => (b.1 m r).trans (a.1 m r), fun m p => (b.2 m p).trans (a.2 m p)⟩

theorem SameRegs.of_foldl {α : Type} (f : State → α → State) (h : ∀ s x, SameRegs s (f s x)) (s : State) (l : List α) :
    SameRegs s (l.foldl f s) := by
  induction l generalizing s with
  | nil => exact ⟨fun _ _ => rfl, fun _ _ => rfl⟩
  | cons x l ih => exact (h s x).trans (ih (f s x))

theorem SameRegs.of_threads {s t : State} (h : ∀ m, t.thread? m = s.thread? m) : SameRegs s t :=
  ⟨fun m r => by unfold State.reg; rw [h], fun m p => by unfold State.pred; rw [h]⟩

theorem SameRegs.of_modThread (s : State) (m : Member) (f : Thread → Thread) (hr : ∀ t : Thread, (f t).regs = t.regs)
    (hp : ∀ t : Thread, (f t).preds = t.preds) : SameRegs s (s.modThread m f) :=
  ⟨fun k r => s.reg_modThread m k f r hr, fun k p => s.pred_modThread m k f p hp⟩

theorem State.thread?_modWarp (s : State) (w : Nat) (f : Warp → Warp) (ht : ∀ x : Warp, (f x).threads = x.threads) (m : Member) :
    (s.modWarp w f).thread? m = s.thread? m := by
  unfold State.thread?
  rw [State.warp?_modWarp]
  by_cases h : m.wid = w
  · subst h; rw [if_pos rfl]; cases s.warp? m.wid <;> simp [ht]
  · rw [if_neg h]

theorem State.thread?_endSample (s : State) (q : Nat) (m : Member) : (s.endSample q).thread? m = s.thread? m := by
  unfold State.endSample
  simp only
  split <;> rfl

theorem SameRegs.of_retire (s : State) (e : Env) (next : List (Member × VAddr)) : SameRegs s (s.retire e next) := by
  unfold State.retire
  simp only
  have h1 := SameRegs.of_foldl (fun (t : State) m => t.modThread m fun x => x.complete e.len (targetOf next m) s.now)
    (fun t m => SameRegs.of_modThread t m _ (fun x => (x.complete_keeps _ _ _).2.1) fun x => (x.complete_keeps _ _ _).2.2) s e.members
  have h2 := SameRegs.of_foldl (fun (t : State) w => t.modWarp w fun x => x.watched e.pc)
    (fun t w => SameRegs.of_threads (t.thread?_modWarp w _ fun _ => rfl)) (e.members.foldl (fun t m => t.modThread m fun x => x.complete e.len (targetOf next m) s.now) s) (warpsOf e.members)
  split
  · exact h1.trans h2
  · exact (h1.trans h2).trans (SameRegs.of_threads fun m => State.thread?_endSample _ _ m)

theorem State.thread?_charge (s : State) (core ctx pc : Nat) (l : List Nat) (m : Member) :
    (s.charge core ctx pc l).thread? m = s.thread? m := by
  unfold State.charge
  cases s.ctx? ctx with
  | none => rfl
  | some c => simp only; split <;> rfl

/-! ### The outcomes of an issue -/

section outcomes
variable {s : State} {sh : Shape} {e : Env} {body : Env → State → Effect}

theorem State.issue_checked (h : Issues s sh e) :
    s.issue sh body = match body e s with
      | .done t => (t.chargeIssue e sh.cycles).retire e []
      | .go t next =>
        let bad := next.filter fun (m, x) => match t.thread? m with | some u => s.badTarget e.core (s.ctxOfGroup e.group) u x | none => false
        if bad.isEmpty then ((t.chargeIssue e sh.cycles).recordBranch e next).retire e (next.map fun (m, x) => (m, x.extractLsb' 0 56))
        else s.raiseAt e sh.cycles (bad.map fun (m, x) => (m, ⟨Code.badTarget, x⟩)) 0
      | .fault causes info => s.raiseAt e sh.cycles causes info
      | .faultAt t causes info => t.raiseAt e sh.cycles causes info
      | .hold t => t.chargeStall e
      | .wait k parks t => (t.chargeIssue e sh.cycles).beginWait e k parks
      | .pageWait l t => (t.chargeIssue e sh.cycles).pageWait e l
      | .left t => t.chargeIssue e sh.cycles := by
  unfold State.issue
  rw [h.group]
  have h1 : (e.exec.any fun m => s.pendingAny m sh.regs) = false := by
    simp only [List.any_eq_false]; intro m hm; simp [h.ready m hm]
  have h2 : (sh.flag.any fun f => s.flagFull (warpsOf e.exec) (hdrFlag e.hdr f)) = false := by
    cases hf : sh.flag with
    | none => rfl
    | some f => simpa using h.room f hf
  have h3 : e.exec.isEmpty = false := by
    cases he : e.exec with
    | nil => exact absurd he h.someone
    | cons _ _ => rfl
  simp only [h.legal, h1, h2, h3, Bool.not_true, Bool.false_eq_true, if_false]
  all_goals rfl

/-- An instruction whose own effect is done: it is charged, and the group goes on. -/
theorem State.issue_done (h : Issues s sh e) {t : State} (hb : body e s = .done t) :
    s.issue sh body = (t.chargeIssue e sh.cycles).retire e [] := by rw [State.issue_checked h, hb]

theorem State.issue_fault (h : Issues s sh e) {c : List Cause} {i : BitVec 64} (hb : body e s = .fault c i) :
    s.issue sh body = s.raiseAt e sh.cycles c i := by rw [State.issue_checked h, hb]

theorem State.issue_hold (h : Issues s sh e) {t : State} (hb : body e s = .hold t) : s.issue sh body = t.chargeStall e := by
  rw [State.issue_checked h, hb]

theorem State.issue_wait (h : Issues s sh e) {k : WaitKind} {p : Bool} {t : State} (hb : body e s = .wait k p t) :
    s.issue sh body = (t.chargeIssue e sh.cycles).beginWait e k p := by rw [State.issue_checked h, hb]

theorem State.issue_left (h : Issues s sh e) {t : State} (hb : body e s = .left t) : s.issue sh body = t.chargeIssue e sh.cycles := by
  rw [State.issue_checked h, hb]

theorem State.issue_go (h : Issues s sh e) {t : State} {next : List (Member × BitVec 64)} (hb : body e s = .go t next)
    (hn : ∀ p ∈ next, ∀ u, t.thread? p.1 = some u → s.badTarget e.core (s.ctxOfGroup e.group) u p.2 = false) :
    s.issue sh body = ((t.chargeIssue e sh.cycles).recordBranch e next).retire e (next.map fun (m, x) => (m, x.extractLsb' 0 56)) := by
  rw [State.issue_checked h, hb]
  have hbad : (next.filter fun p => match t.thread? p.1 with | some u => s.badTarget e.core (s.ctxOfGroup e.group) u p.2 | none => false) = [] := by
    rw [List.filter_eq_nil_iff]
    intro p hp
    cases ht : t.thread? p.1 with
    | none => simp
    | some u => simp [hn p hp u ht]
  simp only
  rw [if_pos]
  simpa using hbad

end outcomes

/-! ### Executing threads -/

/-- The group at its instruction is the one that holds the slot, and its executing threads exist. -/
theorem State.env?_spec {s : State} {sh : Shape} {e : Env} (h : s.env? sh = some e) :
    (s.quarter s.focus).slot = some e.group ∧ e.q = s.focus ∧ e.len = sh.len ∧
    ∀ m ∈ e.exec, m ∈ e.members ∧ ∃ t, s.thread? m = some t ∧ guardHolds t sh.guard sh.sense = true := by
  unfold State.env? at h
  cases hs : (s.quarter s.focus).slot with
  | none => rw [hs] at h; exact absurd h (by simp)
  | some g =>
    rw [hs] at h
    simp only at h
    cases ht : g.members.head?.bind s.thread? with
    | none => rw [ht] at h; exact absurd h (by simp)
    | some t =>
      rw [ht] at h
      simp only at h
      split at h
      · exact absurd h (by simp)
      · injection h with h
        subst h
        refine ⟨rfl, rfl, rfl, fun m hm => ?_⟩
        obtain ⟨h1, h2⟩ := List.mem_filter.mp hm
        refine ⟨h1, ?_⟩
        cases hm : s.thread? m with
        | none => rw [hm] at h2; exact absurd h2 (by simp)
        | some u => rw [hm] at h2; exact ⟨u, rfl, h2⟩

theorem Issues.isSome {s : State} {sh : Shape} {e : Env} (h : Issues s sh e) {m : Member} (hm : m ∈ e.exec) : (s.thread? m).isSome := by
  obtain ⟨_, t, ht, _⟩ := (State.env?_spec h.group).2.2.2 m hm
  rw [ht]; rfl

/-! ### Results in registers and predicates -/

theorem Kept.of_setReg (s : State) (m : Member) (r : Nat) (v : Word) : Kept s (s.setReg m r v) :=
  Kept.of_modThread s m _ fun _ => rfl

theorem Kept.of_setPred (s : State) (m : Member) (p : Nat) (v : Bool) : Kept s (s.setPred m p v) :=
  Kept.of_modThread s m _ fun _ => rfl

theorem Kept.of_setPair (s : State) (m : Member) (r : Nat) (v : DWord) : Kept s (s.setPair m r v) :=
  (Kept.of_setReg s m r _).trans (Kept.of_setReg _ m (r + 1) _)

theorem State.isSome_setPair (s : State) (m k : Member) (r : Nat) (v : DWord) :
    ((s.setPair m r v).thread? k).isSome = (s.thread? k).isSome := by
  unfold State.setPair; rw [State.isSome_setReg, State.isSome_setReg]

/-- R87: what each register holds once every executing thread has written one. -/
theorem State.reg_write (s : State) (l : List Member) (d : Nat) (v : Member → Word) (hl : ∀ m ∈ l, (s.thread? m).isSome) (k : Member)
    (r : Nat) : (l.foldl (fun t m => t.setReg m d (v m)) s).reg k r = if k ∈ l ∧ r = d then v k else s.reg k r := by
  induction l generalizing s with
  | nil => simp
  | cons m l ih =>
    rw [List.foldl_cons, ih (s.setReg m d (v m)) fun x hx => by rw [State.isSome_setReg]; exact hl x (List.mem_cons_of_mem m hx),
      State.reg_setReg _ _ _ _ _ _ (hl m List.mem_cons_self)]
    by_cases h1 : r = d <;> by_cases h2 : k ∈ l <;> by_cases h3 : k = m <;> simp_all

theorem State.pred_write (s : State) (l : List Member) (d : Nat) (v : Member → Word) (k : Member) (p : Nat) :
    (l.foldl (fun t m => t.setReg m d (v m)) s).pred k p = s.pred k p := by
  induction l generalizing s with
  | nil => rfl
  | cons m l ih => rw [List.foldl_cons, ih, State.pred_setReg]

/-- R19, R27, R87: a meaning that writes one register of each executing thread. -/
theorem writes_of_issue {i : Instr} {s : State} {sh : Shape} {d : Nat} {v : State → Member → Word}
    (hx : exec i s = .next (s.issue sh fun e u => .done (e.write u d (v u)))) : Writes i s sh d (v s) := by
  intro e h
  have hc : Kept s (((e.write s d (v s)).chargeIssue e sh.cycles).retire e []) :=
    ((Kept.of_foldl _ (fun t m => Kept.of_setReg t m d (v s m)) s e.exec).trans (Kept.of_charge _ _ _ _ _)).trans (Kept.of_retire _ _ _)
  have hr : SameRegs (e.write s d (v s)) (((e.write s d (v s)).chargeIssue e sh.cycles).retire e []) :=
    (SameRegs.of_threads fun m => State.thread?_charge _ _ _ _ _ m).trans (SameRegs.of_retire _ _ _)
  have hw := State.reg_write s e.exec d (v s) fun m hm => h.isSome hm
  refine ⟨_, hx.trans (congrArg _ (State.issue_done h rfl)), fun m hm => ?_, fun m r hn => ?_, fun m p _ => ?_, hc⟩
  · rw [hr.1]; unfold Env.write; rw [hw, if_pos ⟨hm, rfl⟩]
  · rw [hr.1]; unfold Env.write; rw [hw, if_neg]
    rintro ⟨h1, rfl⟩
    rcases hn with hn | hn
    · exact hn h1
    · simp at hn
  · rw [hr.2]; exact State.pred_write s e.exec d (v s) m p

theorem State.reg_setPair (s : State) (m k : Member) (d r : Nat) (v : DWord) (hm : (s.thread? m).isSome) :
    (s.setPair m d v).reg k r =
      if k = m ∧ r = d + 1 then v.extractLsb' 32 32 else if k = m ∧ r = d then v.extractLsb' 0 32 else s.reg k r := by
  unfold State.setPair
  rw [State.reg_setReg _ _ _ _ _ _ (by rw [State.isSome_setReg]; exact hm), State.reg_setReg _ _ _ _ _ _ hm]

theorem State.pred_setPair (s : State) (m k : Member) (d p : Nat) (v : DWord) : (s.setPair m d v).pred k p = s.pred k p := by
  unfold State.setPair; rw [State.pred_setReg, State.pred_setReg]

theorem State.reg_writePair (s : State) (l : List Member) (d : Nat) (v : Member → DWord) (hl : ∀ m ∈ l, (s.thread? m).isSome) (k : Member)
    (r : Nat) : (l.foldl (fun t m => t.setPair m d (v m)) s).reg k r =
      if k ∈ l ∧ r = d + 1 then (v k).extractLsb' 32 32 else if k ∈ l ∧ r = d then (v k).extractLsb' 0 32 else s.reg k r := by
  induction l generalizing s with
  | nil => simp
  | cons m l ih =>
    rw [List.foldl_cons, ih (s.setPair m d (v m)) fun x hx => by rw [State.isSome_setPair]; exact hl x (List.mem_cons_of_mem m hx),
      State.reg_setPair _ _ _ _ _ _ (hl m List.mem_cons_self)]
    by_cases h1 : r = d <;> by_cases h1' : r = d + 1 <;> by_cases h2 : k ∈ l <;> by_cases h3 : k = m <;> simp_all

theorem State.pred_writePair (s : State) (l : List Member) (d : Nat) (v : Member → DWord) (k : Member) (p : Nat) :
    (l.foldl (fun t m => t.setPair m d (v m)) s).pred k p = s.pred k p := by
  induction l generalizing s with
  | nil => rfl
  | cons m l ih => rw [List.foldl_cons, ih, State.pred_setPair]

/-- R12: a pair read back from its halves. -/
theorem pair_of_halves (v : DWord) : v.extractLsb' 32 32 ++ v.extractLsb' 0 32 = v := by
  apply BitVec.eq_of_getLsbD_eq
  intro i hi
  simp only [BitVec.getLsbD_append, BitVec.getLsbD_extractLsb']
  by_cases h : i < 32
  · simp [h]
  · have h1 : i - 32 < 32 := by omega
    have h2 : 32 + (i - 32) = i := by omega
    simp [h, h1, h2]

/-- R12, R27: a meaning that writes one pair of each executing thread. -/
theorem writesPair_of_issue {i : Instr} {s : State} {sh : Shape} {d : Nat} {v : State → Member → DWord}
    (hx : exec i s = .next (s.issue sh fun e u => .done (e.writePair u d (v u)))) : WritesPair i s sh d (v s) := by
  intro e h
  have hc : Kept s (((e.writePair s d (v s)).chargeIssue e sh.cycles).retire e []) :=
    ((Kept.of_foldl _ (fun t m => Kept.of_setPair t m d (v s m)) s e.exec).trans (Kept.of_charge _ _ _ _ _)).trans (Kept.of_retire _ _ _)
  have hr : SameRegs (e.writePair s d (v s)) (((e.writePair s d (v s)).chargeIssue e sh.cycles).retire e []) :=
    (SameRegs.of_threads fun m => State.thread?_charge _ _ _ _ _ m).trans (SameRegs.of_retire _ _ _)
  have hw := State.reg_writePair s e.exec d (v s) fun m hm => h.isSome hm
  refine ⟨_, hx.trans (congrArg _ (State.issue_done h rfl)), fun m hm => ?_, fun m r hn => ?_, fun m p _ => ?_, hc⟩
  · unfold State.pair
    rw [hr.1, hr.1]; unfold Env.writePair
    rw [hw, hw, if_pos ⟨hm, rfl⟩, if_neg (by simp), if_pos ⟨hm, rfl⟩]
    exact pair_of_halves _
  · rw [hr.1]; unfold Env.writePair
    rw [hw, if_neg, if_neg]
    · rintro ⟨h1, rfl⟩; rcases hn with hn | hn
      · exact hn h1
      · simp at hn
    · rintro ⟨h1, rfl⟩; rcases hn with hn | hn
      · exact hn h1
      · simp at hn
  · rw [hr.2]; exact State.pred_writePair s e.exec d (v s) m p

theorem State.pred_setPredAt (s : State) (m k : Member) (p q : Nat) (v : Bool) (hm : (s.thread? m).isSome) (hp : p < 12) :
    (s.setPred m p v).pred k q = if k = m ∧ q = p then v else s.pred k q := by
  unfold State.pred
  rw [State.thread?_setPred]
  by_cases h : k = m
  · subst h
    obtain ⟨t, ht⟩ := Option.isSome_iff_exists.mp hm
    simp [ht, Thread.pred_setPred _ _ _ _ hp]
  · simp [h]

theorem State.isSome_setPred (s : State) (m k : Member) (p : Nat) (v : Bool) :
    ((s.setPred m p v).thread? k).isSome = (s.thread? k).isSome := by
  rw [State.thread?_setPred]; by_cases h : k = m <;> simp [h]

theorem State.pred_writePred (s : State) (l : List Member) (d : Nat) (v : Member → Bool) (hl : ∀ m ∈ l, (s.thread? m).isSome)
    (hd : d < 12) (k : Member) (p : Nat) :
    (l.foldl (fun t m => t.setPred m d (v m)) s).pred k p = if k ∈ l ∧ p = d then v k else s.pred k p := by
  induction l generalizing s with
  | nil => simp
  | cons m l ih =>
    rw [List.foldl_cons, ih (s.setPred m d (v m)) fun x hx => by rw [State.isSome_setPred]; exact hl x (List.mem_cons_of_mem m hx),
      State.pred_setPredAt _ _ _ _ _ _ (hl m List.mem_cons_self) hd]
    by_cases h1 : p = d <;> by_cases h2 : k ∈ l <;> by_cases h3 : k = m <;> simp_all

theorem State.reg_writePred (s : State) (l : List Member) (d : Nat) (v : Member → Bool) (k : Member) (r : Nat) :
    (l.foldl (fun t m => t.setPred m d (v m)) s).reg k r = s.reg k r := by
  induction l generalizing s with
  | nil => rfl
  | cons m l ih => rw [List.foldl_cons, ih, State.reg_setPred]

/-- R13, R27: a meaning that writes one predicate of each executing thread. -/
theorem writesPred_of_issue {i : Instr} {s : State} {sh : Shape} {d : Nat} {v : State → Member → Bool} (hd : d < 12)
    (hx : exec i s = .next (s.issue sh fun e u => .done (e.writePred u d (v u)))) : WritesPred i s sh d (v s) := by
  intro e h
  have hc : Kept s (((e.writePred s d (v s)).chargeIssue e sh.cycles).retire e []) :=
    ((Kept.of_foldl _ (fun t m => Kept.of_setPred t m d (v s m)) s e.exec).trans (Kept.of_charge _ _ _ _ _)).trans (Kept.of_retire _ _ _)
  have hr : SameRegs (e.writePred s d (v s)) (((e.writePred s d (v s)).chargeIssue e sh.cycles).retire e []) :=
    (SameRegs.of_threads fun m => State.thread?_charge _ _ _ _ _ m).trans (SameRegs.of_retire _ _ _)
  have hw := State.pred_writePred s e.exec d (v s) (fun m hm => h.isSome hm) hd
  refine ⟨_, hx.trans (congrArg _ (State.issue_done h rfl)), fun m hm => ?_, fun m r _ => ?_, fun m p hn => ?_, hc⟩
  · rw [hr.2]; unfold Env.writePred; rw [hw, if_pos ⟨hm, rfl⟩]
  · rw [hr.1]; exact State.reg_writePred s e.exec d (v s) m r
  · rw [hr.2]; unfold Env.writePred; rw [hw, if_neg]
    rintro ⟨h1, rfl⟩; rcases hn with hn | hn
    · exact hn h1
    · simp at hn

/-! ### An effect of its own -/

/-- What each thread of a list without repeats is, once one change has been made for each. -/
theorem State.thread?_foldl (s : State) (l : List Member) (f : Member → Thread → Thread) (hl : l.Nodup) (k : Member) :
    (l.foldl (fun t m => t.modThread m (f m)) s).thread? k = if k ∈ l then (s.thread? k).map (f k) else s.thread? k := by
  induction l generalizing s with
  | nil => simp
  | cons m l ih =>
    obtain ⟨h1, h2⟩ := List.nodup_cons.mp hl
    rw [List.foldl_cons, ih _ h2, State.thread?_modThread]
    by_cases h : k = m
    · subst h; simp [h1]
    · simp [h]

theorem State.thread?_watched (s : State) (l : List Nat) (pc : Nat) (k : Member) :
    (l.foldl (fun t w => t.modWarp w fun x => x.watched pc) s).thread? k = s.thread? k := by
  induction l generalizing s with
  | nil => rfl
  | cons w l ih => rw [List.foldl_cons, ih, State.thread?_modWarp s w (fun x => x.watched pc) (fun _ => rfl)]

/-- R27: where the threads of a group stand once its instruction has completed. -/
theorem Arrives.of_retire (s : State) (e : Env) (next : List (Member × VAddr)) : Arrives s (s.retire e next) e s.now (targetOf next) := by
  intro hn m hm
  have h := State.thread?_foldl s e.members (fun m x => x.complete e.len (targetOf next m) s.now) hn m
  rw [if_pos hm] at h
  unfold State.retire
  simp only
  split
  · rw [State.thread?_watched, h]
  · show (State.endSample _ _).thread? m = _
    rw [State.thread?_endSample, State.thread?_watched, h]

/-- R19, R27: a meaning whose own effect is `own` and whose group goes on. -/
theorem does_of_issue {i : Instr} {s : State} {sh : Shape} {ok : Env → Prop} {own : Env → State} {body : Env → State → Effect}
    (hx : exec i s = .next (s.issue sh body)) (hb : ∀ e, Issues s sh e → ok e → body e s = .done (own e)) : Does i s sh ok own := by
  intro e h ho
  have hc : Kept (own e) (((own e).chargeIssue e sh.cycles).retire e []) := (Kept.of_charge _ _ _ _ _).trans (Kept.of_retire _ _ _)
  have hr : SameRegs (own e) (((own e).chargeIssue e sh.cycles).retire e []) :=
    (SameRegs.of_threads fun m => State.thread?_charge _ _ _ _ _ m).trans (SameRegs.of_retire _ _ _)
  refine ⟨_, hx.trans (congrArg _ (State.issue_done h (hb e h ho))), hc, fun m r _ => hr.1 m r, fun m p _ => hr.2 m p, fun hn m hm => ?_⟩
  rw [Arrives.of_retire _ e [] hn m hm]
  unfold State.chargeIssue
  rw [State.thread?_charge]
  have : ((own e).charge e.core ((own e).ctxOfGroup e.group) e.pc (e.classes (own e) sh.cycles)).now = (own e).now := by
    unfold State.charge; cases (own e).ctx? _ <;> simp only; split <;> rfl
  rw [this]; rfl

end Sys2Proof.Machine
end

