-- ==== Sys2Proof/Tests/Slice0.lean ====
section
/-! SUPPORT. The package's own tests: words of the spec's worked encodings, terms that are not well formed, the spec's worked
results, and a witness for the hypotheses of each statement of Certificates/Slice0. Every expected value is the spec's. -/

namespace Sys2Proof.Tests

open Sys2Proof Sys2Proof.Machine

set_option Elab.async false

/-! ### Words of the worked encodings (R59, R63 to R67 and the entries) -/

theorem test_decode_short_forms :
    decode 0x1934 = .ok (.fadd16 3 9, 2) ∧ decode 0x9278 = .ok (.fmul16 18 19, 2) := ⟨rfl, rfl⟩

theorem test_decode_integer :
    decode 0x0440000403097883 = .ok (.iaddW ⟨15, 0, 9, 3, 4, 0, 0, 1, 0, 0, 1, 0⟩, 8) ∧
    decode 0x080C1939 = .ok (.add64Imm 8 6 6, 4) ∧ decode 0x0508886D = .ok (.icmpp false 5 4 0x22, 4) ∧
    decode 0x7FFA1461 = .ok (.movi 0x3FFD 5, 4) := ⟨rfl, rfl, rfl, rfl⟩

theorem test_decode_float :
    decode 0x49000A090882998F = .ok (.ffmaW ⟨3, 1, 130, 8, 9, 10, 0, 0, 1, 0, 2, 1⟩, 8) ∧
    decode 0x8508859D = .ok (.fcmpp true 5 4 0x21, 4) ∧ decode 0x060821C9 = .ok (.hmul2 false 6 4 8, 4) ∧
    decode 0x070A21CD = .ok (.hfma2 false 7 5 8, 4) ∧ decode 0x1A341D61 = .ok (.pack false 26 26 7, 4) ∧
    decode 0x00264D55 = .ok (.i2f false 19 19, 4) ∧
    decode 0x140200001A1A795F = .ok (.f2fW ⟨15, 0, 26, 26, 0, 0, 2, 0, 0, 0, 5, 0⟩, 8) := ⟨rfl, rfl, rfl, rfl, rfl, rfl, rfl⟩

theorem test_decode_special : decode 0x00266A09 = .ok (.sincos false 19 26, 4) ∧ decode 0x800E3221 = .ok (.rsqrt true 7 12, 4) :=
  ⟨rfl, rfl⟩

theorem test_decode_control :
    decode 0x7FFF8005 = .ok (.bra 0x1FFFE0, 4) ∧ decode 0x00803019 = .ok (.loop 16 0 12, 4) ∧
    decode 0x0500382D = .ok (.sval 5 14, 4) ∧ decode 0x03000031 = .ok (.partset 3, 4) ∧ decode 0x21 = .ok (.exit, 4) :=
  ⟨rfl, rfl, rfl, rfl, rfl⟩

theorem test_decode_lanes :
    decode 0x89102A41 = .ok (.shfl true 9 8 10, 4) ∧
    decode 0x8000140908827A43 = .ok (.shflW ⟨15, 0, 130, 8, 9, 20, 0, 0, 0, 0, 0, 2⟩, 8) := ⟨rfl, rfl⟩

theorem test_decode_memory :
    decode 0x100C5281 = .ok (.ld false 16 6 20, 4) ∧ decode 0x00182285 = .ok (.st 0 12 8, 4) ∧
    decode 0x020000000E047A87 = .ok (.stW ⟨15, 0, 4, 14, 0, 0, 0, 0, 4, 0⟩, 8) ∧
    decode 0x0104020005097A8F = .ok (.ldsW ⟨15, 0, 9, 5, 0, 2, 1, 0, 2, 0⟩, 8) := ⟨rfl, rfl, rfl, rfl⟩

theorem test_decode_atomics_and_fences :
    decode 0x0900001E1A00044B = .ok (.atomp ⟨0, 0, 0, 0x1A, 0x1E, 0, 0, 0, 2, 2⟩, 8) ∧
    decode 0x101C0000000A7C4F = .ok (.fence ⟨15, 0, 10, 0, 0, 0, 7, 0, 0, 4⟩, 8) ∧
    decode 0x0000090806057C57 = .ok (.crdecl ⟨15, 0, 5, 6, 8, 9, 0, 0, 0, 0⟩, 8) := ⟨rfl, rfl, rfl⟩

theorem test_decode_matrix :
    decode 0x00040B0A06017C2F = .ok (.obld ⟨15, 0, 1, 6, 0x0A, 0x0B, 1, 0, 0, 0⟩, 8) ∧
    decode 0x0020800314807C07 = .ok (.mmag ⟨15, 0, 128, 20, 3, 128, 32, 0, 0, 0, 0, 0⟩, 8) ∧
    decode 0x7C33 = .ok (.obswap ⟨15, 0, 0, 0, 0, 0, 0, 0, 0, 0, 0, 0⟩, 8) ∧
    decode 0x0003002A29857C1F = .ok (.apatch ⟨15, 0, 133, 41, 42, 0, 3, 0, 0, 0, 0, 0⟩, 8) := ⟨rfl, rfl, rfl, rfl⟩

theorem test_decode_objects_and_engines :
    decode 0x01000000140A7CBB = .ok (.tkwait ⟨15, 0, 10, 20, 0, 0, 0, 0, 1⟩, 8) ∧
    decode 0x010C140006007C87 = .ok (.cpt ⟨15, 0, 0, 6, 0, 20, 0, 3, 1⟩, 8) := ⟨rfl, rfl⟩

theorem test_decode_launches : decode 0x000C1F1E00007CD7 = .ok (.evwait ⟨15, 0, 0, 0, 0x1E, 0x1F, 0, 3, 0⟩, 8) := rfl

theorem test_decode_traps :
    decode 0x01C800000804783F = .ok (.trapSvcW ⟨15, 0, 4, 8, 0, 0, 0x1C8⟩, 8) ∧ decode 0x41 = .ok (.tret false, 4) ∧
    decode 0x80000041 = .ok (.tret true, 4) ∧ decode 0xFFFF010000007D03 = .ok (.savex ⟨15, 0, 0, 0, 0, 1, 0xFFFF⟩, 8) ∧
    decode 0xFFFF000000007D07 = .ok (.restx ⟨15, 0, 0, 0, 0, 0, 0xFFFF⟩, 8) ∧
    decode 0x0000000400007D1F = .ok (.swr ⟨15, 0, 0, 0, 4, 0, 0⟩, 8) ∧
    decode 0x0005000000007D27 = .ok (.bkpt ⟨15, 0, 0, 0, 0, 0, 5⟩, 8) ∧
    decode 0x000700000A007D13 = .ok (.evmark ⟨15, 0, 0, 10, 0, 0, 7⟩, 8) := ⟨rfl, rfl, rfl, rfl, rfl, rfl, rfl, rfl⟩

/-- R59: a 32-bit word ends in 0b01, and an opcode without an entry is no instruction (R79). -/
theorem test_decode_refuses : decodeTableWord 32 ((0x1FF <<< 2) + 1) = none ∧ decodeTableWord 64 ((0x1FF <<< 2) + 3) = none := by
  decide +kernel

/-! ### Terms that are not well formed -/

/-- Every field zero, unguarded. -/
def x3 : X3 := ⟨15, 0, 0, 0, 0, 0, 0, 0, 0, 0, 0, 0⟩
def xi : XI := ⟨15, 0, 0, 0, 0⟩
def xm : XM := ⟨15, 0, 0, 0, 0, 0, 0, 0, 0, 0⟩
def xe : XE := ⟨15, 0, 0, 0, 0, 0, 0, 0, 0⟩
def xs : XS := ⟨15, 0, 0, 0, 0, 0, 0⟩

def refusesAll (l : List Instr) : Bool := l.all fun i => !i.wf

/-- R13, R70: guards 12 to 14, a negated pt, a field that is not used. -/
theorem test_wf_guard_and_unused_fields : refusesAll
    [.iaddW { x3 with guard := 12 }, .iaddW { x3 with sense := 1 }, .iaddW { x3 with c := 1 }, .iaddW { x3 with scope := 1 },
     .iaddW { x3 with ovf := 2 }, .iaddW { x3 with ftz := 1 }, .iaddW { x3 with fs := 1 }, .iaddW { x3 with ty := 2 },
     .iaddW { x3 with rm := 1 }, .popcW { x3 with b := 1 }, .brxW { x3 with d := 1 }, .exitW { x3 with a := 1 },
     .braW { xi with guard := 14 }, .braW { xi with d := 1 }, .braW { xi with a := 1 }, .nopW { xs with simm := 1 },
     .nopW { xs with c := 1 }, .nopW { xs with guard := 13 }, .stW { xm with fs := 1 }, .stW { xm with b := 1 },
     .stW { xm with scope := 1 }, .barv { xe with guard := 12 }, .lsyncW { x3 with a := 1 }] = true := by decide

theorem test_wf_integer : refusesAll
    [.iaddcW { x3 with c := 12 }, .isubbW { x3 with ovf := 1 }, .plopW { x3 with d := 12 }, .plopW { x3 with a := 12 },
     .plopW { x3 with b := 32 }, .plopW { x3 with d := 96 }, .pmovW { x3 with scope := 1, d := 1 }, .pmovW { x3 with a := 1 },
     .psetW { x3 with d := 12 }, .selW { x3 with c := 13 }, .selW { x3 with scope := 2 }, .movW { x3 with a := 1 },
     .leaW { x3 with c := 8 }, .icmppW { x3 with d := 0x8C }, .cmp64W x3, .loopW xi, .loopW { xi with imm := 1537 },
     .loopW { xi with imm := 3, a := 3 }, .icmppImmW { xi with d := 15 }, .svalW { xi with imm := 128 },
     .waitfW { xi with imm := 4096 }, .lbrkW { x3 with d := 3 }, .partsetW { x3 with b := 6 }, .modeW { x3 with b := 2 },
     .loop 2 0 0, .loop 3 3 0, .lbrk 3, .partset 0, .icmpp false 0 0 0x0C, .plop 0x20 0 0, .pmov true 0 0 1, .pset 0 0 12,
     .mov 0 1 0] = true := by decide

theorem test_wf_float : refusesAll
    [.faddW x3, .faddW { x3 with ty := 2, ovf := 2 }, .fminW { x3 with ty := 2, rm := 1 }, .fcmppW { x3 with ty := 2, d := 0xE0 },
     .fclassW { x3 with ty := 1 }, .fcpysW { x3 with scope := 2 }, .hadd2W { x3 with ty := 2 }, .hmax2W { x3 with ty := 6, rm := 1 },
     .i2fW x3, .f2iW { x3 with ty := 2, scope := 2 }, .f2fW { x3 with ty := 2, scope := 0 }, .f2fW { x3 with ty := 2, scope := 11, ovf := 2 },
     .packW { x3 with ty := 2, scope := 11 }, .unpackW { x3 with ty := 7, scope := 1 }, .unpackW { x3 with ty := 7, ftz := 1 },
     .cvtq { x3 with ty := 2, scope := 5 }, .cvtq { x3 with ty := 2, scope := 43 }, .dqcb { x3 with ty := 14, scope := 5, c := 8 },
     .sinW { x3 with ty := 5 }, .sqrtW { x3 with ty := 2, ovf := 1 }] = true := by decide

theorem test_wf_lanes_and_memory : refusesAll
    [.shflW { x3 with scope := 1 }, .shflW { x3 with scope := 2, c := 1 }, .pairxW { x3 with b := 5 },
     .pairxW { x3 with scope := 1, ty := 1 }, .voteW { x3 with rm := 1, d := 12 }, .reduxW { x3 with b := 6 },
     .reduxW { x3 with ty := 2, b := 3 }, .reduxW { x3 with ftz := 1 }, .scanW { x3 with ty := 2, b := 1, rm := 1 },
     .ldW { xm with size := 5 }, .ldW { xm with var := 6 }, .ldW { xm with var := 8, size := 2 }, .ldroW { xm with var := 1 },
     .ldsW { xm with var := 2 }, .stsW { xm with var := 2 }, .atom { xm with size := 2 }, .atom { xm with size := 1, scope := 1 },
     .atom { xm with size := 3, var := 12, scope := 1 }, .atoms { xm with size := 2, c := 2 }, .atoms { xm with size := 2, c := 1, d := 1 },
     .atomp { xm with size := 2, scope := 1, var := 9 }, .fence { xm with scope := 5 }, .fence { xm with d := 1 },
     .crdecl { xm with d := 64 }] = true := by decide

theorem test_wf_matrix_and_engines : refusesAll
    [.mma { x3 with d := 127 }, .mma { x3 with d := 128, b := 8 }, .mma { x3 with d := 128, c := 136 },
     .mma { x3 with d := 128, c := 128, a := 1 }, .mmag { x3 with d := 128, b := 9, c := 128 }, .mmag { x3 with d := 128, b := 1, c := 127 },
     .aclr { x3 with d := 128 }, .ascale { x3 with d := 128, c := 129 }, .acvt { x3 with a := 128, c := 1, ty := 2 },
     .acvt { x3 with a := 128, c := 1, ty := 9, rm := 1 }, .apatch { x3 with d := 128, scope := 8 }, .apatch { x3 with d := 128, c := 1 },
     .obld { xm with d := 8 }, .obrel { x3 with b := 8 }, .cpa { xe with var8 := 3, scope := 1 }, .cpa { xe with c := 1, scope := 1 },
     .cpt xe, .cpt { xe with scope := 1, d := 1 }, .cpm { xe with scope := 1, var8 := 16 }, .coll { xe with scope := 1, d := 1 },
     .await { x3 with d := 1 }, .savex { xs with c := 2 }, .watch { xe with var8 := 16 }, .unwatch { xs with simm := 17 }, .btest { xe with d := 12 }, .freeze { xs with simm := 512 },
     .bkpt { xs with simm := 256 }, .tretW { xs with simm := 2 }, .trapW { xs with simm := 512 }, .trapSvcW { xs with simm := 0x100, b := 1 },
     .launch { xe with var8 := 2 }, .evwait { xe with scope := 5 }] = true := by decide

/-! ### Worked results -/

/-- A state whose quarter 0 holds a group of one warp at an instruction. -/
def at0 : State := State.reset.withFetchWord 32 1

/-- The same with one warp of these lanes, whose group is all of them. -/
def stand (w : Warp) : State :=
  { at0 with warps := [(0, w)], quarters := [(0, ⟨some ⟨w.threads.map fun e => ⟨0, e.1⟩, 0⟩, 0, [], [], []⟩)] }

def lane (regs : List (Nat × Word)) : Thread := { fetchThread with regs := regs }

/-- One lane with these registers. -/
def one (regs : List (Nat × Word)) : State := stand { fetchWarp with threads := [(0, lane regs)] }

/-- Lanes 0 up, each with its own v8, and v9 the same in all. -/
def row (part : Nat) (l : List Word) (v9 : Word) : State :=
  stand { fetchWarp with part := part, threads := (List.range l.length).zip (l.map fun x => lane [(8, x), (9, v9)]) }

/-- A register of a lane after the instruction. -/
def got (o : Host.Outcome State Fault Refusal) (l r : Nat) : Option Word :=
  match o with
  | .next t => some (t.reg ⟨0, l⟩ r)
  | _ => none

def gotPred (o : Host.Outcome State Fault Refusal) (l p : Nat) : Option Bool :=
  match o with
  | .next t => some (t.pred ⟨0, l⟩ p)
  | _ => none

def gotRow (o : Host.Outcome State Fault Refusal) (n r : Nat) : List (Option Word) := (List.range n).map fun l => got o l r

/-- R91. -/
theorem test_iadd_wraps_and_saturates :
    got (exec (.iadd 4 3 9) (one [(3, 0xFFFFFFF0), (4, 0x20)])) 0 9 = some 0x10 ∧
    got (exec (.iaddW ⟨15, 0, 9, 3, 4, 0, 0, 1, 0, 0, 1, 0⟩) (one [(3, 0xFFFFFFF0), (4, 0x20)])) 0 9 = some 0xFFFFFFFF := by
  decide +kernel

/-- R92: the low words of the worked case, with the carry in p0. -/
theorem test_iaddc_carries :
    got (exec (.iaddcW ⟨15, 0, 10, 4, 6, 0, 0, 0, 0, 0, 0, 0⟩) (one [(4, 0xFFFFFFF0), (6, 0x20)])) 0 10 = some 0x10 ∧
    gotPred (exec (.iaddcW ⟨15, 0, 10, 4, 6, 0, 0, 0, 0, 0, 0, 0⟩) (one [(4, 0xFFFFFFF0), (6, 0x20)])) 0 0 = some true := by
  decide +kernel

/-- R96. -/
theorem test_bfx_extends :
    got (exec (.bfx false 4 3 9) (one [(3, 0xABCD1234), (4, 0xC08)])) 0 9 = some 0xD12 ∧
    got (exec (.bfx true 4 3 9) (one [(3, 0xABCD1234), (4, 0xC08)])) 0 9 = some 0xFFFFFD12 := by decide +kernel

/-- R97. -/
theorem test_prmt_selects : got (exec (.prmt 4 3 9) (one [(3, 0x44332211), (4, 0x88776655), (9, 0x3F70)])) 0 9 = some 0x44FF8811 := by
  decide +kernel

/-- R100: the sum of the worked case of R92. -/
theorem test_add64 :
    got (exec (.add64 6 4 10) (one [(4, 0xFFFFFFF0), (5, 1), (6, 0x20), (7, 2)])) 0 11 = some 4 := by decide +kernel

/-- R102: −2.5 to an integer, to nearest and toward −∞. -/
theorem test_f2i_rounds :
    got (exec (.f2i false 3 9) (one [(3, 0xC0200000)])) 0 9 = some 0xFFFFFFFE ∧
    got (exec (.f2iW ⟨15, 0, 9, 3, 0, 0, 0, 0, 0, 0, 2, 2⟩) (one [(3, 0xC0200000)])) 0 9 = some 0xFFFFFFFD := by decide +kernel

/-- R57, R58. -/
theorem test_i2f_and_f2i_corners :
    got (exec (.i2f false 3 9) (one [(3, 0x01000001)])) 0 9 = some 0x4B800000 ∧
    got (exec (.f2i false 3 9) (one [(3, 0x4F32D05E)])) 0 9 = some 0x7FFFFFFF := by decide +kernel

/-- R115: a product rounded before the sum, and a fused one. -/
theorem test_ffma_rounds_once :
    got (exec (.fmul 5 4 7) (one [(4, 0x3F800800), (5, 0x3F800800)])) 0 7 = some 0x3F801000 ∧
    got (exec (.ffmaW ⟨15, 0, 7, 4, 5, 6, 0, 0, 0, 0, 2, 0⟩) (one [(4, 0x3F800800), (5, 0x3F800800), (6, 0xBF801000)])) 0 7 =
      some 0x33800000 := by decide +kernel

/-- R114: an exact sum of zero under RD. -/
theorem test_fadd_zero_under_rd :
    got (exec (.faddW ⟨15, 0, 7, 6, 8, 0, 0, 0, 0, 0, 2, 2⟩) (one [(6, 0xBF801000), (8, 0x3F801000)])) 0 7 = some 0x80000000 := by
  decide +kernel

/-- R122. -/
theorem test_hadd2_rounds_each_half :
    got (exec (.hadd2 false 2 1 3) (one [(1, 0x3F804000), (2, 0x3B804040)])) 0 3 = some 0x3F8040A0 ∧
    got (exec (.hadd2W ⟨15, 0, 3, 1, 2, 0, 0, 0, 0, 0, 6, 3⟩) (one [(1, 0x3F804000), (2, 0x3B804040)])) 0 3 = some 0x3F8140A0 := by
  decide +kernel

/-- R123. -/
theorem test_hdot2 :
    got (exec (.hdot2 false 4 3 9) (one [(3, 0x40003F80), (4, 0x40404040), (9, 0x3F000000)])) 0 9 = some 0x41180000 := by decide +kernel

/-- R124: the worked conversions to BF16 and FP16, and 300 to E4M3 as the spec's encoding example has it. -/
theorem test_f2f_ties :
    got (exec (.f2f false 3 9) (one [(3, 0x3F818000)])) 0 9 = some 0x3F82 ∧
    got (exec (.f2fW ⟨15, 0, 9, 3, 0, 0, 5, 0, 0, 0, 2, 0⟩) (one [(3, 0x33C00000)])) 0 9 = some 2 := by decide +kernel

/-- R125: the block of the worked case; V39 takes the scale. -/
theorem test_cvtq :
    let o := exec (.cvtq ⟨15, 0, 40, 8, 0, 39, 13, 0, 0, 0, 2, 0⟩)
      (one [(8, 0x41200000), (9, 0xC0400000), (10, 0x3F333333), (11, 0x40E00000)])
    got o 0 40 = some 0x61B6 ∧ got o 0 39 = some 0x80 := by decide +kernel

/-- R152. -/
theorem test_shfl_modes :
    gotRow (exec (.shflW ⟨15, 0, 10, 8, 9, 0, 2, 0, 0, 0, 0, 2⟩) (row 8 [10, 11, 12, 13, 14, 15, 16, 17] 3)) 8 10 =
      [some 13, some 14, some 15, some 16, some 17, some 15, some 16, some 17] ∧
    gotRow (exec (.shflW ⟨15, 0, 10, 8, 9, 0, 2, 0, 0, 0, 0, 3⟩) (row 8 [10, 11, 12, 13, 14, 15, 16, 17] 1)) 8 10 =
      [some 11, some 10, some 13, some 12, some 15, some 14, some 17, some 16] := by decide +kernel

/-- R156: the worked case, with lane 2 guarded off. -/
theorem test_redux_and_scan :
    let s := { row 4 [1, 2, 3, 4, 5, 6, 7, 8] 0 with warps := [(0, { fetchWarp with part := 4, threads := (List.range 8).map fun l =>
      (l, { lane [(8, BitVec.ofNat 32 (l + 1))] with preds := if l = 2 then 0 else 1 }) })] }
    gotRow (exec (.reduxW ⟨0, 0, 9, 8, 0, 0, 2, 0, 0, 0, 0, 0⟩) s) 8 9 =
      [some 7, some 7, some 0, some 7, some 26, some 26, some 26, some 26] ∧
    gotRow (exec (.scanW ⟨0, 0, 9, 8, 0, 0, 3, 0, 0, 0, 0, 0⟩) s) 8 9 =
      [some 0, some 1, some 0, some 3, some 0, some 5, some 11, some 18] := by decide +kernel

/-- R60: the worked header word. -/
theorem test_header :
    let h : Word := 0x7F88008D
    validHeader h = true ∧ hdrLen h = 3 ∧ hdrWait h = 1 ∧ hdrFlagA h = 1 ∧ hdrFlagB h = 15 ∧ hdrGuard h = 15 ∧ hdrSense h = 0 := by
  decide

/-- R93. -/
theorem test_clz_of_zero : got (exec (.clz 3 9) (one [(3, 0)])) 0 9 = some 32 ∧ got (exec (.ctz 3 9) (one [(3, 8)])) 0 9 = some 3 := by
  decide +kernel

/-- R46, R48: the elements of the worked MXFP4 byte 0xB5, before the scale 2². -/
theorem test_e2m1 : e2m1.value 5 = .num ⟨false, 3, 0⟩ ∧ e2m1.value 11 = .num ⟨true, 3, -1⟩ := by decide +kernel

/-- R231, R234: the worked times: order modulo 2²⁴, and the floor of a sweep. -/
theorem test_times :
    precedes 0xFFFFF2#24 0x000029#24 = true ∧ maxs 0xFFFFF2#24 0x000029#24 = 0x29#24 ∧ sweepMark 0x500000#24 - 0x400000#24 = 0x100000#24 := by
  decide

/-! ### Witnesses: states and operands that meet the hypotheses of the statements -/

def issuesB (s : State) (sh : Shape) : Bool :=
  match s.env? sh with
  | none => false
  | some e => e.legal s sh && (e.exec.all fun m => !s.pendingAny m sh.regs) &&
      (match sh.flag with | none => true | some f => !s.flagFull (warpsOf e.exec) (hdrFlag e.hdr f)) && !e.exec.isEmpty

theorem issues_of (s : State) (sh : Shape) (h : issuesB s sh = true) : ∃ e, s.env? sh = some e ∧ Issues s sh e := by
  unfold issuesB at h
  split at h
  · simp at h
  · next e he =>
    simp only [Bool.and_eq_true, List.all_eq_true, Bool.not_eq_true'] at h
    obtain ⟨⟨⟨h1, h2⟩, h3⟩, h4⟩ := h
    refine ⟨e, he, he, h1, h2, fun f hf => ?_, fun h5 => ?_⟩
    · rw [hf] at h3; simpa using h3
    · rw [h5] at h4; simp at h4

/-- Instructions of all these shapes issue. -/
def AllIssue (s : State) (l : List Shape) : Prop := ∀ sh ∈ l, ∃ e, Issues s sh e

theorem allIssue {s : State} {l : List Shape} (h : l.all (issuesB s) = true) : AllIssue s l := fun sh m => by
  obtain ⟨e, -, he⟩ := issues_of s sh (List.all_eq_true.mp h sh m)
  exact ⟨e, he⟩

/-- An instruction of this shape issues under a condition on its group. -/
def Shows (s : State) (sh : Shape) (ok : Env → Bool) : Prop := ∃ e, Issues s sh e ∧ ok e = true

theorem shows_ {s : State} {sh : Shape} {ok : Env → Bool} (h : (issuesB s sh && (s.env? sh).any ok) = true) : Shows s sh ok := by
  simp only [Bool.and_eq_true] at h
  obtain ⟨e, h1, h2⟩ := issues_of s sh h.1
  refine ⟨e, h2, ?_⟩
  have := h.2
  rw [h1] at this
  simpa using this

/-- One lane, its registers zero. -/
def zero : State := one []

/-- Three, two and one register operands, pairs, and an immediate, in each length. -/
def registerShapes : List Shape :=
  [shapeX3 2 x3 [(0, 1), (0, 1), (0, 1)], shapeX3 4 x3 [(127, 1), (0, 1), (127, 1)], shapeX3 8 x3 [(255, 1), (255, 1), (255, 1)],
   shapeX3 8 x3 [(254, 1), (254, 1)], shapeX3 8 x3 [(254, 2), (255, 1), (255, 1), (254, 2)], shapeX3 4 x3 [(126, 2), (126, 2), (0, 2)],
   shapeX3 8 x3 [], shapeXI 4 xi [(127, 1), (127, 1)], shapeXI 8 xi [(255, 1), (0, 1)], shapeXI 8 xi [(254, 2), (254, 2)],
   shapeX3 8 { x3 with guard := 0, sense := 1 } [(9, 1)]]

theorem witness_IntegerArithmetic : AllIssue zero registerShapes := allIssue (by decide +kernel)
/-- The carry predicate at its bounds, and an accepted encoding of each entry. -/
theorem witness_CarriesAndCounts :
    (AllIssue zero registerShapes ∧ (({ x3 with c := 11 } : X3).c = 15#8 ∨ ({ x3 with c := 11 } : X3).c.toNat < 12)) ∧
    [Instr.iaddcW { x3 with c := 15 }, .isubbW { x3 with c := 11 }, .popcW x3, .clzW x3, .ctzW x3, .brevW x3].all Instr.wf = true :=
  ⟨⟨allIssue (by decide +kernel), by decide⟩, by decide⟩
theorem witness_LogicShiftsAndFields : AllIssue zero registerShapes := allIssue (by decide +kernel)
/-- A predicate destination at its bound. -/
theorem witness_ImmediatesAndComparisons : AllIssue zero registerShapes ∧ predOf 11 < 12 := ⟨allIssue (by decide +kernel), by decide⟩
theorem witness_AddressesAndPredicates : AllIssue zero registerShapes ∧ predOf 11 < 12 ∧ (zero.thread? ⟨0, 0⟩).isSome = true :=
  ⟨allIssue (by decide +kernel), by decide, by decide +kernel⟩
/-- A NaN, an infinity, zeros of either sign, and values that each format holds. -/
theorem witness_FloatArithmetic : AllIssue zero registerShapes ∧ fp32.value 0x7FC00000 = .nan ∧ fp32.value 0x7F800000 = .inf false ∧
    fp32.value 0xFF800000 = .inf true ∧ fp32.read true 0x80000000 = .num ⟨true, 0, -149⟩ ∧ fp32.read true 0 = .num ⟨false, 0, -149⟩ ∧
    e2m1.value 7 = .num ⟨false, 3, 1⟩ ∧ 7 < 2 ^ e2m1.bits :=
  ⟨allIssue (by decide +kernel), by decide +kernel, by decide +kernel, by decide +kernel, by decide +kernel, by decide +kernel, by decide +kernel,
   by decide⟩
theorem witness_FloatSelectCompareAndFields : AllIssue zero registerShapes ∧ predOf 0x8B < 12 ∧ condOf 0x60 = 6 ∧ condOf 0x70 = 7 :=
  ⟨allIssue (by decide +kernel), by decide, by decide, by decide⟩
theorem witness_PackedHalvesAndConversions : AllIssue zero (registerShapes ++
    [{ shapeX3 8 x3 [(255, 1), (254, 2)] with cycles := 2 }, shapeX3 8 x3 [(252, 4), (255, 1)],
     { shapeX3 8 x3 (regRange 8 32 ++ regRange 40 4 ++ [(39, 1)]) with cycles := 4 }]) := allIssue (by decide +kernel)
theorem witness_SpecialFunctions : AllIssue zero [{ shapeX3 4 x3 [(127, 1), (127, 1)] with flag := some 0 },
    { shapeX3 8 x3 [(254, 2), (255, 1)] with flag := some 1 }] ∧ ((zero.quarter 0).sfuLoad < 16 ∧ (zero.quarter 0).sfu = []) ∧
    fp32.value 0x7FC00001 = .nan ∧ (zero.thread? ⟨0, 0⟩).any (·.live) = true :=
  ⟨allIssue (by decide +kernel), by decide +kernel, by decide +kernel, by decide +kernel⟩

/-- A run of one instruction, and one of two. -/
def inRun (s : State) : State :=
  { s with warps := Tab.modify s.warps 0 fun w => { w with threads := w.threads.map fun e => (e.1, { e.2 with rhdr := 0x7FF80009 }) } }

theorem witness_CompletionMovesTheGroupOn :
    Shows zero (shapeX3 4 x3 []) (fun e => hdrLen e.hdr ≤ e.pos + 1) ∧ Shows (inRun zero) (shapeX3 4 x3 []) (fun e => e.pos + 1 < hdrLen e.hdr) ∧
    ∃ u, (fun (_ : Env) (s : State) => Effect.done s) ⟨0, fetchGroup, 0, 0, 0, 4, 15, 0, []⟩ zero = .done u :=
  ⟨shows_ (by decide +kernel), shows_ (by decide +kernel), ⟨_, rfl⟩⟩

/-- A thread at the end of a run with these loops. -/
def looping (l : List Loop) (lcs : List (Nat × Word)) : Thread := { fetchThread with loops := l, lcs := lcs }

def ending (regs : List (Nat × Nat)) : Shape := { shapeX3 8 x3 regs with place := .ending }

theorem witness_Loops :
    (hdrLen (looping [] []).rhdr ≤ (looping [] []).pos.toNat + 1 ∧
      (none : Option VAddr).getD ((looping [] []).pc + BitVec.ofNat 56 4) = BitVec.ofNat 56 (fetchBase + 4)) ∧
    ((looping [⟨0, 0, BitVec.ofNat 56 (fetchBase + 4)⟩] [(0, 2)]).lc 0 ≠ 1 ∧ (looping [⟨0, 0, 4⟩] [(0, 1)]).lc 0 = 1) ∧
    Shows zero { shapeXI 8 { xi with a := 2, imm := 3 } [(0, 1)] with place := .ending } (fun e => e.exec.all fun m =>
      (zero.thread? m).any fun u => u.loops.length < 3 && u.loops.all fun l => l.lcn != 2) ∧
    Shows (stand { fetchWarp with threads := [(0, looping [⟨2, 0, 0⟩] [(2, 1)])] })
      { shapeXI 8 { xi with a := 2, imm := 3 } [(0, 1)] with place := .ending } (fun e => e.exec.all fun m =>
      ((stand { fetchWarp with threads := [(0, looping [⟨2, 0, 0⟩] [(2, 1)])] }).thread? m).any fun u => u.loops.any fun l => l.lcn == 2) ∧
    Shows (stand { fetchWarp with threads := [(0, looping [⟨1, 0, 0⟩, ⟨2, 0, 0⟩] [])] }) (ending []) (fun e => e.exec.all fun m =>
      ((stand { fetchWarp with threads := [(0, looping [⟨1, 0, 0⟩, ⟨2, 0, 0⟩] [])] }).thread? m).any fun u => u.loops.any fun l => l.lcn == 2) ∧
    Shows zero (ending []) (fun e => e.exec.all fun m => (zero.thread? m).any fun u => u.loops.all fun l => l.lcn != 0) :=
  ⟨⟨by decide, by decide⟩, ⟨by decide, by decide⟩, shows_ (by decide +kernel), shows_ (by decide +kernel), shows_ (by decide +kernel),
   shows_ (by decide +kernel)⟩

/-- The run header before the instruction is in memory. -/
def headed : State := { zero with mem := zero.mem.write 0x20000000 (bytesOf 0x7FF80005 4) }

/-- A branch from the only instruction of the code to its own run header, with the recorder off. -/
theorem witness_BranchesCallsAndReturns :
    Shows headed { shapeXI 8 { xi with imm := 0xFFFFFFFE } [] with place := .ending } (fun e => headed.sys.rdbase == 0 && e.exec.all fun m =>
      (headed.thread? m).any fun u => u.hidden.length < 16 &&
        !headed.badTarget e.core (headed.ctxOfGroup e.group) u (BitVec.ofInt 64 (e.pc + 2 * (0xFFFFFFFE#32).toInt))) ∧
    Shows (one [(0, 0x20000000)]) (ending [(0, 2)]) (fun e => e.exec.all fun m => ((one [(0, 0x20000000)]).thread? m).any fun u =>
      (one [(0, 0x20000000)]).badTarget e.core ((one [(0, 0x20000000)]).ctxOfGroup e.group) u ((one [(0, 0x20000000)]).pair m 0)) ∧
    Shows (stand { fetchWarp with threads := [(0, { fetchThread with hidden := [0x20000000] })] }) (ending []) (fun e => e.exec.all fun m =>
      ((stand { fetchWarp with threads := [(0, { fetchThread with hidden := [0x20000000] })] }).thread? m).any fun u => u.hidden != []) ∧
    Shows zero (ending []) (fun e => e.exec.all fun m => (zero.thread? m).any fun u => u.hidden == [] && u.spill == 0) :=
  ⟨shows_ (by decide +kernel), shows_ (by decide +kernel), shows_ (by decide +kernel), shows_ (by decide +kernel)⟩

theorem witness_ExitAndWaits : AllIssue zero [ending [], { shapeXI 8 { xi with imm := 4095 } [] with place := .ending }, shapeXS 4 xs [], shapeXS 8 xs []] :=
  allIssue (by decide +kernel)

/-- A value of 32 bits and one of 64. -/
theorem witness_SystemValues : AllIssue zero [{ shapeXI 8 { xi with imm := 5 } [(255, 1)] with fits := (svalWidth 5).isSome },
    { shapeXI 4 { xi with imm := 0x0B } [(126, 2)] with fits := (svalWidth 0x0B).isSome }] ∧ (zero.warp? 0).isSome = true ∧
    (zero.thread? ⟨0, 0⟩).isSome = true := ⟨allIssue (by decide +kernel), by decide +kernel, by decide +kernel⟩

/-- Eight lanes in tiles of four, v8 their numbers. -/
def tiles : State := row 4 [1, 2, 3, 4, 5, 6, 7, 8] 3

/-- A lane, and the executing lane of the same tile that it reads; the full mask, and one in a register. -/
theorem witness_ShuffleAndPairExchange :
    AllIssue tiles [shapeXL 4 { x3 with scope := 2 } [(10, 1), (8, 1), (9, 1)], shapeXL 8 { x3 with scope := 3, rm := 3 } [(10, 1), (8, 1)]] ∧
    AllIssue (row 4 [0xFF, 0xFF, 0xFF, 0xFF, 0xFF, 0xFF, 0xFF, 0xFF] 3) [shapeXL 8 { x3 with c := 8 } [(10, 1), (8, 1), (9, 1)]] ∧
    tiles.partOf ⟨0, 5⟩ = 4 ∧ (3 : Nat) < tiles.partOf ⟨0, 5⟩ :=
  ⟨allIssue (by decide +kernel), allIssue (by decide +kernel), by decide +kernel, by decide +kernel⟩
theorem witness_VotesReductionsAndScans :
    AllIssue tiles [shapeXL 4 { x3 with scope := 2 } [(10, 1)], shapeXL 8 { x3 with scope := 2, rm := 3, d := 11 } [],
      shapeXL 8 { x3 with scope := 3 } [(10, 1), (8, 1)], { shapeXL 8 { x3 with scope := 2, ty := 1, b := 5 } [(10, 1), (8, 1)] with cycles := 2 }] ∧
    ((11#8 : BitVec 8).toNat % 16 < 12) ∧ [(1 : Word), 2] ≠ [] := ⟨allIssue (by decide +kernel), by decide, by decide⟩
theorem witness_PartsetAndLaneSync : AllIssue tiles [{ shapeX3 4 { x3 with b := 5 } [] with place := .leading }] ∧
    Shows tiles (shapeXL 4 { x3 with scope := 2 } []) (fun e => (warpsOf e.exec).all fun w => !tiles.warpAwaits w) :=
  ⟨allIssue (by decide +kernel), shows_ (by decide +kernel)⟩

/-! Memory -/

/-- A warp of a block of 64 scratchpad lines, the first of which holds `v`. -/
def padded (w : Warp) (v : Nat) : State :=
  { stand w with blocks := [(0, { fetchBlock with lines := 64 })]
                 mem := { (stand w).mem with scratch := [(0, ⟨BitVec.ofNat 1024 v, true, .uncounted, false⟩)] } }

/-- V0:V1 name the first byte of the block's scratchpad lines, at its own alias. -/
def own (more : List (Nat × Word)) : Warp := { fetchWarp with threads := [(0, lane ([(0, 0xFFF80000), (1, 0x00FFFFFF)] ++ more))] }

/-- A page of global memory that may be read and written. -/
def page : TlbEntry := ⟨0, 0, 2, 29, 0x4000000F⟩

/-- Lanes of a warp, V0:V1 of each at its own address of that page. -/
def global (n stride : Nat) (more : List (Nat × Word)) : State :=
  let s := stand { fetchWarp with threads := (List.range n).map fun l => (l, lane ([(0, BitVec.ofNat 32 (0x40000000 + l * stride))] ++ more)) }
  { s with mem := { s.mem with tlb := page :: s.mem.tlb } }

/-- A load from a page, a load from the scratchpad with 16 bytes, and a misaligned one. -/
theorem witness_LoadsIssueOrTrap :
    let f : XM := { xm with d := 8, size := 2 }
    let g : XM := { xm with d := 8, size := 4, fs := 1 }
    let s := global 2 4 []
    let t := padded (own []) 5
    Shows s { shapeMem 4 f false with flag := some f.fs } (fun e => (e.attempt s (e.loadSpot f false)).stops == [] &&
      (warpsOf e.exec).all fun w => s.absentLoads w < 8) ∧
    Shows t { shapeMem 8 g true with flag := some g.fs } (fun e => (e.attempt t (e.loadSpot { g with a := 9 } true)).stops == [] &&
      (warpsOf e.exec).all fun w => t.absentLoads w < 8) ∧
    Shows (one [(0, 0x40000002)]) (shapeMem 8 f false) (fun e => e.exec.all fun m =>
      (one [(0, 0x40000002)]).addressOf false m 0 0 4 % 4 != 0 && (one [(0, 0x40000002)]).addressOf false m 0 0 4 < 2 ^ 56) :=
  ⟨shows_ (by decide +kernel), shows_ (by decide +kernel), shows_ (by decide +kernel)⟩

/-- Two lanes that store to a page; eight that fill a line of a declared region; one that names no region. -/
theorem witness_StoresAndCountedFills :
    let f : XM := { xm with d := 8, size := 2 }
    let c : XM := { xm with d := 8, size := 4, var := 1 }
    let s := global 2 4 []
    let t := { global 8 16 [] with ctxs := [(0, { fetchCtx with regions := [(0, ⟨0x40000000, 128, 3, false, 0, 0, 0⟩)] })] }
    let u := global 8 16 []
    Shows s (shapeMem 8 f false) (fun e => (e.attempt s (e.storeSpot f false)).stops == [] && s.sys.rdbase == 0 &&
      s.canStore e.core (globalLinesOf (e.attempt s (e.storeSpot f false)).spots) && e.exec.all fun m => !s.threadAwaits m) ∧
    Shows t (shapeMem 8 c false) (fun e =>
      let a := e.attempt t (e.storeSpot c false)
      let fills := t.fillsOf (t.ctxOfGroup e.group) (a.spots.map fun x => (x, t.regs x.m 8 4)) 16
      a.stops == [] && (t.fillStops a.spots).isEmpty && fills.isSome && (a.t.fillAll 0 e.core e.group.seed (fills.getD [])).1.isSome) ∧
    Shows u (shapeMem 8 c false) (fun e =>
      let a := e.attempt u (e.storeSpot c false)
      a.stops == [] && (u.fillsOf (u.ctxOfGroup e.group) (a.spots.map fun x => (x, u.regs x.m 8 4)) 16).isNone) :=
  ⟨shows_ (by decide +kernel), shows_ (by decide +kernel), shows_ (by decide +kernel)⟩

/-- One destination of lane 0, whose value has come. -/
def arrived (size : Nat) (k : OpKind) : State :=
  { zero with mem := { zero.mem with ops := [(7, ⟨k, 0, 0, [(0, 3)], [⟨0, 0, 8, size, false, 0, 0, some 5⟩], [], []⟩)] } }

theorem witness_ReturnsWriteDestinations :
    let s := arrived 4 (.load false)
    (∃ o x w, Tab.get? s.mem.ops 7 = some o ∧ o.dests = [x] ∧ x.wid = 0 ∧ o.flags = [(0, 3)] ∧ s.destValue 7 x = some 5 ∧
      s.warp? 0 = some w ∧ w.defers 7 = false ∧ (s.thread? ⟨0, x.lane⟩).any (·.live) = true ∧ o.kind = .load false) ∧
    (({ fetchThread with status := .exited } : Thread).live = false) ∧
    ∃ o, Tab.get? (arrived 8 .atomic).mem.ops 7 = some o ∧ o.kind = .atomic :=
  ⟨⟨_, _, _, rfl, rfl, rfl, rfl, rfl, rfl, by decide, by decide, rfl⟩, rfl, _, rfl, rfl⟩

theorem witness_Atomics :
    let f : XM := { xm with d := 8, b := 9, size := 2, scope := 3 }
    let s := global 2 4 []
    let t := padded (own []) 5
    Shows s { shapeXM f [fieldRegs f.d 4, r2 f.a, atomicRegs f] with flag := some f.fs } (fun e =>
      (e.attempt s (e.atomicSpot f false)).stops == [] && s.sys.rdbase == 0 && e.exec.all fun m => !s.threadAwaits m) ∧
    Shows t (shapeXM { f with a := 9, scope := 0, c := 1 } [r1 9, atomicRegs f]) (fun e =>
      let a := e.attempt t (e.atomicSpot { f with a := 9, scope := 0, c := 1 } true)
      a.stops == [] && a.spots.all fun x => x.t.scratch) :=
  ⟨shows_ (by decide +kernel), shows_ (by decide +kernel)⟩

/-! Operand buffers and the matrix unit -/

/-- Descriptors of eight lines of FP16: a B panel of eight columns, the same with a shadow range, an A panel, and a codebook. -/
def panelB : Nat := 0x500001000
def panelShadow : Nat := 0x500001000 + 2 ^ 28 + 8 * 2 ^ 19
def panelA : Nat := 0x2500001000 + 16
def book : Nat := 2 ^ 42 + 14 * 2 ^ 32 + 16 * 2 ^ 9 + 8 * 2 ^ 96

def holding (r : List (Nat × Reservation)) (more : List (Nat × Word)) : Warp := { own more with records := r }

def rec (d : Nat) : Reservation := ⟨BitVec.ofNat 256 d, false⟩

def okOf {ε α : Type} : Except ε α → Option α
  | .ok x => some x
  | .error _ => none

theorem witness_OperandBuffer :
    let s := padded (own []) panelB
    let t := padded (holding [(0, rec panelShadow)] [(2, 128), (3, 0)]) 0
    let u := padded (holding [(0, rec book)] []) 0
    Shows s (shapeXE xe [r2 0]) (fun e => (e.forWarps s (s.obresSpot xe)).2.1.isEmpty && e.exec.all fun m => !s.recordBusy m.wid 0) ∧
    (∃ v w, okOf (s.readObject ⟨0, 0⟩ (s.pair ⟨0, 0⟩ 0).toNat 32 32).1 = some v ∧ s.warp? 0 = some w ∧ descriptorOk (BitVec.ofNat 256 v) = true ∧
      s.obFree 0 (BitVec.ofNat 256 v) = true) ∧
    Shows t (shapeX3 8 x3 []) (fun e => e.exec.all fun m => !t.recordBusy m.wid 0 &&
      (((t.warp? m.wid).bind (·.record? 0)).any fun r => obHasShadow r.desc)) ∧
    Shows s (shapeX3 8 x3 []) (fun e => e.exec.all fun m => ((s.warp? m.wid).bind (·.record? 0)).isNone) ∧
    Shows t { shapeXM { xm with b := 2, c := 3 } [r2 0, r1 2, r1 3] with flag := some 0 } (fun e =>
      (e.forWarps t (e.obldTurn { xm with b := 2, c := 3 })).2.1.isEmpty && (e.forWarps t (e.obldTurn { xm with b := 2, c := 3 })).1.length == 1 &&
      (t.productsOf 0).isEmpty) ∧
    Shows u (shapeX3 8 { x3 with d := 8 } [r4 8, r1 0, r1 0]) (fun e => e.exec.all fun m =>
      (((u.warp? m.wid).bind (·.record? 0)).any fun r => obFormat r.desc == 14) && !u.obldWrites m.wid (lineRange 8 8)) ∧
    (let o : Op := ⟨.obld 0 0 0 false, 0, 0, [(0, 1)], [⟨0, 0, 0, 1, false, 0, 0, none⟩], [], [(0, 9)]⟩
     let v : State := { t with mem := { t.mem with ops := [(7, o)] } }
     Tab.get? v.mem.ops 7 = some o ∧ v.obldLine 7 o 0 = some 9 ∧ (∀ x ∈ v.obldsOf 0, ¬x.1 < 7)) :=
  ⟨shows_ (by decide +kernel), ⟨panelB, _, by decide +kernel, rfl, by decide +kernel, by decide +kernel⟩, shows_ (by decide +kernel),
   shows_ (by decide +kernel), shows_ (by decide +kernel), shows_ (by decide +kernel), rfl, by decide +kernel, by decide +kernel⟩

/-- A full warp of 256 registers in matrix mode. -/
def matrix (r : List (Nat × Reservation)) (regs : List (Nat × Word)) : Warp :=
  { fetchWarp with mmode := true, records := r, threads := (List.range 32).map fun l => (l, lane regs) }

def leading (regs : List (Nat × Nat)) : Shape := { shapeX3 8 x3 regs with place := .leading }

theorem witness_MatrixMode :
    Shows at0 (leading []) (fun e => e.exec.all fun m => !at0.modeStops m.wid) ∧
    Shows zero (leading []) (fun e => e.exec.all fun m => zero.modeStops m.wid && (zero.warp? m.wid).all fun w => !w.mmode) ∧
    (∃ w, zero.warp? 0 = some w ∧ (w.alloc ≠ 256 ∨ w.liveMask ≠ BitVec.allOnes 32)) ∧
    Shows zero (shapeX3 8 x3 []) (fun e => (warpsOf e.exec).all fun w => (zero.warp? w).all fun x => !x.mmode) :=
  ⟨shows_ (by decide +kernel), shows_ (by decide +kernel), ⟨_, rfl, by decide +kernel⟩, shows_ (by decide +kernel)⟩

theorem witness_ProductsEnterTheFabric :
    let r := [(0, rec panelB), (2, rec panelA)]
    let f : X3 := { x3 with d := 128, c := 0x82 }
    let g : X3 := { x3 with d := 128, a := 4, b := 1, c := 0x82 }
    let s := padded (matrix r []) 0
    let t := padded (matrix r [(4, 0x0020)]) 0
    let sh := { shapeProduct f [] with flag := some 0 }
    Shows s sh (fun e => e.inMatrix s && (s.quarter e.q).fabric.length < 4 && (s.warp? 0).any fun w =>
      productFault w f 1 [0] false false == none && !productHeld e.exec s w (e.product w f .mma 0x100 1 [(0, 32, 0)] []) 0 0) ∧
    Shows t (shapeProduct g [r4 4]) (fun e => e.inMatrix t && (t.warp? 0).any fun w =>
      groupTable (t.regs e.first 4 4) 1 == [(0, 32, 0)] &&
      productFault w g 1 [0] (groupBits (t.regs e.first 4 4) 1) false == none && !productHeld e.exec t w (e.product w g .mmag 0x101 1 [(0, 32, 0)] []) 4 0) ∧
    Shows at0 sh (fun e => !e.inMatrix at0) ∧
    (let u := padded (matrix r [(0, 0xFFF80000), (1, 0x00FFFFFF)]) (2 ^ 270 + 2 ^ 274)
     Shows u { shapeX3 8 f [r2 0] with place := .leading, flag := some 0, named := [r1 128] } (fun e => e.inMatrix u &&
      e.members.head? == some e.first && okOf (u.readObject e.first (u.pair e.first 0).toNat 64 64).1 == some (2 ^ 270 + 2 ^ 274) &&
      (u.warp? 0).any fun w => u.mmatFault w f (some (BitVec.ofNat 512 (2 ^ 270 + 2 ^ 274))) == none)) :=
  ⟨shows_ (by decide +kernel), shows_ (by decide +kernel), shows_ (by decide +kernel), shows_ (by decide +kernel)⟩

/-- A product whose only step is the next. -/
def product (inside : Bool) : Product :=
  ⟨0, .mma, 0, 0, 0, 1, 0, some 1, 0xFFFFFFFF, [], [], 0, inside, 0, 0, none, 0, 0, 0, 0⟩

def fabric (inside : Bool) : State := at0.modQuarter 0 fun q => { q with fabric := [product inside] }

/-- The four warps of a block, each in a quarter of its core, that wait with one descriptor. -/
def team : State :=
  { at0 with
    warps := (List.range 4).map fun i => (i, { fetchWarp with residence := .resident 0 i 0 0, threads := [(0, fetchThread)] })
    blocks := [(0, { fetchBlock with warps := [0, 1, 2, 3] })]
    waits := (List.range 4).map fun i => (10 + i, ⟨[⟨i, 0⟩], 8, .mmat x3 0 77, 0, false⟩) }

theorem witness_KSteps :
    ((fabric false).quarter 0).fabric = [product false] ∧ ((fabric true).quarter 0).fabric = [product true] ∧
    (product true).nextK + 1 = (product true).steps ∧ ((fabric false).warp? 0).all (fun w => w.trap.isNone) = true ∧
    ((fabric true).warp? 0).isSome = true ∧ team.mmatWait 2 = some (12, x3, 0, 77) ∧
    ((team.teamBlocks 2).flatMap fun b => (List.range 4).map fun c => team.mmatAt b c 77) = [0, 1, 2, 3].map some ∧
    ((team.warp? 2).bind team.launchOfWarp).map Launch.teamSize = some 1 := by decide +kernel

theorem witness_MatrixEpilogue :
    let s := padded (matrix [] []) 0
    let t := padded (matrix [] [(8, 5), (9, 8)]) 0
    let n (d a c : BitVec 8) : X3 := { x3 with d := d, a := a, c := c }
    Shows s (leading []) (fun e => e.inMatrix s && !s.columnsHeld e.exec 120 8 && !s.regsHeld e.exec 4 2) ∧
    ((n 248 0 8).d.toNat - 128) + (n 248 0 8).c.toNat ≤ 128 ∧ 128 < ((n 249 0 8).d.toNat - 128) + (n 249 0 8).c.toNat ∧
    (n 0 248 8).c.toNat % (32 / typeBits 5) = 0 ∧
    Shows at0 (leading []) (fun e => !e.inMatrix at0) ∧
    Shows t { shapeX3 8 { x3 with d := 128, b := 8 } [] with place := .leading, cycles := 2, named := [r2 8] } (fun e => e.inMatrix t &&
      (t.reg e.first 9).toNat == 8 && okOf (t.patchTarget { x3 with d := 128, b := 8 } e.first 0) == some 0 &&
      !t.columnsHeld (e.exec.map fun m => ⟨0, m.lane⟩) 0 8) :=
  ⟨shows_ (by decide +kernel), by decide, by decide, by decide, shows_ (by decide +kernel), shows_ (by decide +kernel)⟩

/-! Regions, objects and engines -/

/-- The block's own scratchpad holds 64 lines; v2 and v3 are given. -/
def owner (v v2 v3 : Nat) : State := padded (own [(2, BitVec.ofNat 32 v2), (3, BitVec.ofNat 32 v3)]) v

theorem witness_RegionsAndLines :
    let s := owner 0 128 (2 ^ 8 + 1)
    let bad := owner 0 64 1
    let f : XM := { xm with b := 2, c := 3, d := 63 }
    let u := { s with ctxs := [(0, { fetchCtx with regions := [(63, ⟨0x40000000, 128, 3, false, 0, 0, 0⟩)] })] }
    let p := owner 0 32 0
    Shows s (shapeXM f [r2 0, r1 2, r1 3]) (fun e => (s.ctx? 0).any (fun x => x.regions.isEmpty) && (s.pair e.first 0).toNat % 128 == 0 &&
      (s.reg e.first 2).toNat == 128 && (s.reg e.first 3).toNat % 256 != 0 && (s.reg e.first 3).toNat < 512 &&
      s.regionFits (s.blockOf e.first.wid) (s.pair e.first 0).toNat 128) ∧
    Shows bad (shapeXM f [r2 0, r1 2, r1 3]) (fun e => (bad.ctx? 0).isSome && (bad.reg e.first 2).toNat < 128) ∧
    Shows u (shapeXM f []) (fun e => ((u.ctx? (u.ctxOfGroup e.group)).bind fun c => Tab.get? c.regions 63).isSome) ∧
    Shows s (shapeXM f [r2 0, r1 2]) (fun e => (s.rangeOperand e.first f).isSome &&
      ((s.rangeOperand e.first f).any fun x => (s.cleanRange e.core 0 .home (s.rangeLines e.core 0 x.1 x.2)).1.isSome)) ∧
    Shows bad (shapeXM f [r2 0, r1 2]) (fun e => (bad.rangeOperand e.first f).isNone) ∧
    Shows p (shapeXM { xm with d := 9, a := 4, b := 2 } [r1 9, r1 4, r1 2]) (fun e => (p.reg e.first 2).toNat == 32 &&
      (p.block? (p.blockOf e.first.wid)).any fun b => (p.reg e.first 4).toNat + 32 * 128 ≤ b.lines * 128) :=
  ⟨shows_ (by decide +kernel), shows_ (by decide +kernel), shows_ (by decide +kernel), shows_ (by decide +kernel), shows_ (by decide +kernel),
   shows_ (by decide +kernel)⟩

/-- A ring of two slots of one line, one of them taken, and a barrier that expects two arrivals. -/
def ringObj : Nat := (Machine.Ring.mk 1 2 128 1 0 1 1 0).toNat
def barObj : Nat := (Machine.Barrier.mk 0 false 0 5 0 2 2).toNat

theorem witness_FencesRingsAndBarriers :
    let s := owner ringObj 0 0
    let b := owner barObj 0 0
    let n := owner 0 256 0
    let bad := owner (2 ^ 127) 0 0
    AllIssue s [shapeXM { xm with var := 4, scope := 4, d := 9 } [r1 9], shapeXE { xe with var8 := 1 } [r1 9, r2 0, r1 2]] ∧
    Shows s (shapeXE xe [r2 0]) (fun e => ((s.ringOf e.first (s.pair e.first 0).toNat).any fun x => x.1 == 0 && x.2.1 == 0 && x.2.2.rp != x.2.2.ap) &&
      (warpsOf e.exec).all fun w => s.quiet w) ∧
    (let empty := owner (Machine.Ring.mk 1 2 128 0 0 0 0 0).toNat 0 0
     Shows empty (shapeXE xe [r2 0]) (fun e => (empty.ringOf e.first (empty.pair e.first 0).toNat).any fun x => x.2.2.rp == x.2.2.ap)) ∧
    Shows n (shapeXE { xe with b := 2, c := 3 } [r2 0, r1 2, r1 3]) (fun e => n.ownObject e.first (n.pair e.first 0).toNat 32 == some (0, 0) &&
      (n.reg e.first 2).toNat % 128 == 0 && !n.ringInUse 0 0) ∧
    Shows n (shapeXE { xe with b := 2 } [r2 0, r1 2]) (fun e => n.ownObject e.first (n.pair e.first 0).toNat 16 == some (0, 0) &&
      1 ≤ (n.reg e.first 2).toNat && (((n.warp? 0).bind n.launchOfWarp).any fun l => l.levelOf 2 != none) && !n.barrierNamed 0 0) ∧
    Shows b (shapeXE { xe with b := 2 } [r2 0, r1 2]) (fun e => b.barrierOf e.first (b.pair e.first 0).toNat == some (0, 0)) ∧
    Shows bad (shapeXE { xe with b := 2 } [r2 0, r1 2]) (fun e => (bad.barrierOf e.first (bad.pair e.first 0).toNat).isNone) :=
  ⟨allIssue (by decide +kernel), shows_ (by decide +kernel), shows_ (by decide +kernel), shows_ (by decide +kernel), shows_ (by decide +kernel),
   shows_ (by decide +kernel), shows_ (by decide +kernel)⟩

/-- A barrier before, and at, its last arrival; the keystone's first arrival, its last, and a release. -/
theorem witness_BarriersAndKeystones :
    let s := owner barObj 0 0
    let l : Launch := { fetchLaunch with record := fetchLaunch.record + BitVec.ofNat 2048 (2 ^ 444 + (2 + 3 * 2 ^ 32) * 2 ^ 1088) }
    let a : Arrival := ⟨0, 1, 0, 1, 0, 9⟩
    let k : Keystone := ⟨0, 1, 0, 0, [0], 4, []⟩
    let u : State := { s with arrivals := [(5, a)], keystones := [(6, { k with arrived := [], releasing := [0] })] }
    (s.barrier 0 0 = ⟨0, false, 0, 5, 0, 2, 2⟩ ∧ s.barrierBad 0 0 = false ∧ (1 < (s.barrier 0 0).arr ∧ 2 = (s.barrier 0 0).arr)) ∧
    Tab.get? u.arrivals 5 = some a ∧ u.keystoneOf { a with level := 2 } = none ∧
    ({ u with keystones := [(6, k)] } : State).keystoneOf a = some (6, k) ∧ a.block ∉ k.arrived ∧
    (u.blocks.find? fun y => y.2.launch == 0 && y.2.linear == 0 && !y.2.departed) = some (0, { fetchBlock with lines := 64 }) ∧
    (owner (Machine.Barrier.mk 0 true 0 5 0 2 2).toNat 0 0).barrier 0 0 = ⟨0, true, 0, 5, 0, 2, 2⟩ ∧
    ({ s with launches := [(0, l)] } : State).participants 0 1 = 2 ∧ u.participants 0 2 ≤ [0].length + 1 := by
  decide +kernel

/-! Commands, launches and system registers -/

/-- Command descriptors: a tile of one dimension, one row gathered or scattered, one line to core 0, and a collective. -/
def cptObj : Nat := 0x40000000 + 0x40001000 * 2 ^ 64 + 2 * 2 ^ 128 + 2 ^ 131 + 32 * 2 ^ 224 + 31 * 2 ^ 256 + 4 * 2 ^ 272 + 4 * 2 ^ 320
def gathObj : Nat :=
  0x40000000 + 0x40002000 * 2 ^ 64 + 0x40001000 * 2 ^ 128 + 128 * 2 ^ 192 + 2 ^ 208 + 4 * 2 ^ 224 + 128 * 2 ^ 256 + 128 * 2 ^ 288
def cpmObj : Nat := 0x40000000 + 2 ^ 160
def collObj : Nat := 0x40000000 + 0x40010000 * 2 ^ 64 + 2 * 2 ^ 132 + 32 * 2 ^ 160

/-- The object of that many bytes that V0:V1 of the issuing thread name, and a queue with room for a command. -/
def names (s : State) (e : Env) (n v : Nat) : Bool := okOf (s.readObject e.first (s.pair e.first 0).toNat n n).1 == some v
def roomy (s : State) (e : Env) (eng : Nat) : Bool := (s.engineQueue (queueKey eng (s.ctxOfGroup e.group))).tasks.length < 64

theorem witness_QueuesTakeCommands : (zero.env? (shapeXE xe [r2 0])).isSome = true ∧
    ((zero.warp? 0).isSome = true ∧ scratchBase ≤ 0xFFFFFFFFF80000 / 128 * 128) := by decide +kernel

theorem witness_EngineCommands :
    let f : XE := xe
    let sh := shapeCommand f [r2 0]
    let c := owner cptObj 0 0
    let g := owner gathObj 0 0
    let p := owner cpmObj 0 0
    let k := { owner collObj 0 0 with ctxs := [(0, { fetchCtx with groups := [(0, 1)] })] }
    let z := owner 0 0 0
    let a := one [(0, 0x40000000), (2, 0x40001000)]
    let r := one [(0, 0x40000000), (2, 128)]
    let u := { a with engines := [(0, { EngineQueue.empty with nextSeq := 1 })] }
    Shows c sh (fun e => names c e 128 cptObj && cptOk (BitVec.ofNat 1024 cptObj) false false && roomy c e (copyEngine e.core) &&
      (c.commandBars f e.first == some []) && (c.sideStop 0 0x40001000 (0x40001000 + cptSpan (BitVec.ofNat 1024 cptObj))).isNone &&
      (c.sideStop 0 (cptSource (BitVec.ofNat 1024 cptObj)).1 (cptSource (BitVec.ofNat 1024 cptObj)).2).isNone) ∧
    Shows g sh (fun e => names g e 64 gathObj && gathOk (BitVec.ofNat 512 gathObj) false false false &&
      gathOk (BitVec.ofNat 512 gathObj) true false false && roomy g e (gatherEngine e.core) && (g.sideStop 0 0x40000000 0x40002004).isNone) ∧
    Shows a (shapeCommand f [r2 0, r2 2]) (fun e => roomy a e (copyEngine e.core) && e.exec.all fun m =>
      (a.elementStop m (a.pair m 0).toNat 4).isEmpty && (a.elementStop m (a.pair m 2).toNat 4).isEmpty) ∧
    Shows p sh (fun e => names p e 32 cpmObj && cpmOk (BitVec.ofNat 256 cpmObj) && roomy p e (copyEngine e.core) &&
      (p.scratchAt (p.blockOf e.first.wid) (cpmLine (BitVec.ofNat 256 cpmObj) 0 0)).isSome && cpmLines (BitVec.ofNat 256 cpmObj) == 1 &&
      cpmCores (BitVec.ofNat 256 cpmObj) == [0]) ∧
    Shows k sh (fun e => names k e 64 collObj && collOk (BitVec.ofNat 512 collObj) 32 &&
      (k.participantsOf (k.ctxOfGroup e.group) 32 (BitVec.ofNat 512 collObj)).contains (0, dieOf e.core) && roomy k e (collectiveEngine e.core)) ∧
    Shows r (shapeXM { xm with d := 4, b := 2, c := 6 } [r2 4, r2 0, r1 2, r1 6]) (fun e => roomy r e (copyEngine e.core) &&
      (r.reg e.first 6).toNat == 0 && r.rangeOperand e.first { xm with b := 2, c := 6 } == some (0x40000000, 128) &&
      (e.watchStop r e.first 0x40000000 128 true false).isNone) ∧
    Shows u (shapeXE f [r2 6]) (fun e => e.exec.all fun m => u.tokenOk (u.ctxOfGroup e.group) (u.pair m 6)) ∧
    -- and where they fault
    Shows z sh (fun e => names z e 128 0 && names z e 64 0 && names z e 32 0 && !cptOk 0 false false && !gathOk 0 false false false &&
      !gathOk 0 true false false && !cpmOk 0 && !collOk 0 32) ∧
    Shows c (shapeCommand { f with var8 := 2, c := 8 } [r2 0]) (fun e => (c.commandBars { f with var8 := 2, c := 8 } e.first).isNone) ∧
    Shows a (shapeXM { xm with d := 4, b := 2, c := 6 } [r2 4, r2 0, r1 2, r1 6]) (fun e =>
      (a.rangeOperand e.first { xm with b := 2, c := 6 }).isNone) ∧
    Shows a (shapeXE f [r2 6]) (fun e => e.exec.all fun m => !a.tokenOk (a.ctxOfGroup e.group) (a.pair m 6)) :=
  ⟨shows_ (by decide +kernel), shows_ (by decide +kernel), shows_ (by decide +kernel), shows_ (by decide +kernel), shows_ (by decide +kernel),
   shows_ (by decide +kernel), shows_ (by decide +kernel), shows_ (by decide +kernel), shows_ (by decide +kernel), shows_ (by decide +kernel),
   shows_ (by decide +kernel)⟩

/-- The same lane at the kernel level, which privileges it. -/
def kernel (regs : List (Nat × Word)) (v : Nat) : State :=
  padded { own regs with level := 2, frameKind := 0 } v

/-- Queue 0, bound to the context with one launch submitted. -/
def bound (l : Launch) (regs : List (Nat × Word)) : State :=
  { one regs with queues := [(0, { Queue.unbound with bind := 0x1000, nextSub := 1 })], launches := [(0, { fetchLaunch with sub := 1 }), (1, l)] }

theorem witness_LaunchesAndEvents :
    let spent := bound { fetchLaunch with status := .complete } []
    let under := bound fetchLaunch []
    let far := one [(2, 4096)]
    let k := kernel [] 1
    Shows zero { shapeXE xe [r2 0, r2 0] with place := .ending } (fun _ => true) ∧
    Shows spent { shapeXE xe [r1 2] with place := .ending } (fun e => !spent.handleBad (spent.ctxOfGroup e.group) 0 && (spent.launchDone 0).isSome) ∧
    Shows under { shapeXE xe [r1 2] with place := .ending } (fun e => !under.handleBad (under.ctxOfGroup e.group) 0 && (under.launchDone 0).isNone) ∧
    Shows zero { shapeXE xe [r1 2] with place := .ending } (fun e => zero.handleBad (zero.ctxOfGroup e.group) 0) ∧
    Shows zero (shapeXE xe [r1 2, r1 3]) (fun e => (zero.reg e.first 2).toNat < 4096) ∧
    Shows far (shapeXE xe [r1 2, r1 3]) (fun e => 4096 ≤ (far.reg e.first 2).toNat) ∧
    Shows far { shapeXE xe [r1 2, r1 3] with place := .ending } (fun e => 4096 ≤ (far.reg e.first 2).toNat) ∧
    Shows k (shapeXS 8 xs [r2 0]) (fun e => k.privileged e.first.wid && okOf (k.groupMask xs e.first).1 == some 1) ∧
    Shows zero (shapeXS 8 xs [r2 0]) (fun e => !zero.privileged e.first.wid) ∧
    Shows zero (shapeXS 8 xs []) (fun e => xs.simm.toNat % 4 ≤ zero.recField e.first.wid 435 434 && (zero.block? (zero.blockOf e.first.wid)).isSome) ∧
    Shows zero (shapeXS 8 { xs with simm := 3 } []) (fun e => zero.recField e.first.wid 435 434 < 3 && !zero.privileged e.first.wid) :=
  ⟨shows_ (by decide +kernel), shows_ (by decide +kernel), shows_ (by decide +kernel), shows_ (by decide +kernel), shows_ (by decide +kernel),
   shows_ (by decide +kernel), shows_ (by decide +kernel), shows_ (by decide +kernel), shows_ (by decide +kernel), shows_ (by decide +kernel),
   shows_ (by decide +kernel)⟩

/-- A wide register read without privilege, one read and written with it, and a page table base that is not aligned. -/
theorem witness_SystemRegisters :
    let k := kernel [(8, 1)] 0
    let sh (n : BitVec 16) (l : List (Nat × Nat)) : Shape := { shapeXS 8 { xs with simm := n } l with fits := true }
    AllIssue zero [sh 0 [r1 9], sh 0x25 [r1 9], sh 3 [r1 255]] ∧
    Shows zero (sh 8 [r2 8]) (fun e => sysReadable 8 && sysWide 8 && e.exec.all fun m => !zero.privileged m.wid) ∧
    Shows k (sh 8 [r2 8]) (fun e => sysWritable 8 && e.exec.all fun m => k.privileged m.wid) ∧
    Shows k (sh 0x12 [r1 9]) (fun e => !sysWide 0x12 && e.exec.all fun m => k.swrStop { xs with simm := 0x12, b := 9 } m == none) ∧
    Shows k (sh 9 [r2 8]) (fun e => e.exec.all fun m => k.privileged m.wid &&
      k.swrStop { xs with simm := 9, b := 8 } m == some (m, ⟨Code.sysState, 0⟩)) :=
  ⟨allIssue (by decide +kernel), shows_ (by decide +kernel), shows_ (by decide +kernel), shows_ (by decide +kernel), shows_ (by decide +kernel)⟩

theorem witness_SavesWatchesAndMarks :
    let good := owner (2 ^ 67) 0 0
    let paged := global 1 0 []
    let bad := owner 0 0 0
    let f : XS := { xs with simm := 0xFFFF }
    let k := kernel [] 0
    Shows zero (shapeXS 8 f [r2 0]) (fun e => (e.exec.all fun m => ((zero.warp? m.wid).all fun w => f.simm.toNat < 2 ^ (w.alloc / 16)) &&
      (e.uniform m.wid).all fun u => (zero.pair u 0).toNat % 4096 == 0)) ∧
    Shows paged (shapeXS 8 { xs with simm := 1 } [r2 0]) (fun e => (e.saveStops paged { xs with simm := 1 } true).1.isEmpty &&
      (e.saveStops paged { xs with simm := 1 } false).1.isEmpty) ∧
    Shows good (shapeXE xe [r2 0]) (fun e => names good e 64 (2 ^ 67) && watchFits (BitVec.ofNat 512 (2 ^ 67))) ∧
    Shows bad (shapeXE xe [r2 0]) (fun e => names bad e 64 0 && !watchFits 0) ∧
    AllIssue zero [shapeXS 8 xs [], shapeXS 8 xs [r2 0], { shapeXS 8 xs [r2 8, r1 2] with cycles := 4 }] ∧
    Shows zero { shapeXS 8 xs [] with place := .ending } (fun e => ((zero.ctx? (zero.ctxOfGroup e.group)).any fun c => !c.ended) &&
      zero.ctxOf e.first.wid == zero.ctxOfGroup e.group && e.exec.all fun m => !zero.privileged m.wid) ∧
    Shows k { shapeXS 8 { xs with simm := 256 } [] with place := .ending } (fun e => e.exec.all fun m => k.privileged m.wid) :=
  ⟨shows_ (by decide +kernel), shows_ (by decide +kernel), shows_ (by decide +kernel), shows_ (by decide +kernel), allIssue (by decide +kernel),
   shows_ (by decide +kernel), shows_ (by decide +kernel)⟩

/-- A context with a service ring in a page that may be written. -/
def serving : State :=
  let s := owner 7 0 0
  { s with ctxs := [(0, { fetchCtx with svccnt := 32, svcbase := 0x40000000 })], mem := { s.mem with
                    tlb := page :: s.mem.tlb
                    homes := [(0x800000, { HomeLine.fresh with cached := true }), (0x800020, { HomeLine.fresh with cached := true })] } }

theorem witness_TrapInstructions :
    let h := padded { own [] with level := 1, frameKind := 1 } 0
    AllIssue zero [{ shapeXS 4 xs [] with place := .ending }, { shapeXS 8 xs [] with place := .ending }, shapeXS 8 xs []] ∧
    Shows serving { shapeXS 8 { xs with d := 8 } [r2 0, r4 8] with place := .ending } (fun e =>
      (serving.ctx? (serving.ctxOfGroup e.group)).any fun c => c.serviceRoom 1 && match e.serviceArgs serving 0 with
        | ([x], [], u) => x.2 == 7 &&
            match (u.ctxWrite 0 (c.serviceAt 0) 128 (serviceEntry x.2 0 0 x.1.lane 1 0 0 0)).1 with
            | some v => (v.announceService 0 c 1).1.isSome
            | none => false
        | _ => false) ∧
    Shows h { shapeXS 4 xs [] with place := .ending } (fun e => e.exec.all fun m => (h.warp? m.wid).all fun w => w.level != 0) ∧
    Shows zero { shapeXS 8 xs [] with place := .ending } (fun e => e.exec.all fun m => (zero.warp? m.wid).any fun w => w.level == 0) ∧
    Shows h (shapeXS 4 xs []) (fun e => e.exec.all fun m => (h.warp? m.wid).all fun w => w.level == 1 && w.frameKind == 1) ∧
    Shows zero (shapeXS 8 xs []) (fun e => e.exec.all fun m => (zero.warp? m.wid).any fun w => w.level != 1) :=
  ⟨allIssue (by decide +kernel), shows_ (by decide +kernel), shows_ (by decide +kernel), shows_ (by decide +kernel), shows_ (by decide +kernel),
   shows_ (by decide +kernel)⟩

/-- A pair beyond the last register, a register whose result is due, and a guard that no thread meets. -/
theorem witness_ChecksBeforeEffect :
    let sh := shapeX3 8 x3 [(9, 1)]
    let due := { zero with mem := { zero.mem with ops := [(7, ⟨.load false, 0, 0, [(0, 3)], [⟨0, 0, 9, 4, false, 0, 0, none⟩], [], []⟩)] } }
    (∃ e, zero.env? (shapeX3 8 x3 [(255, 2)]) = some e ∧ e.legal zero (shapeX3 8 x3 [(255, 2)]) = false) ∧
    (∃ e, due.env? sh = some e ∧ e.legal due sh = true ∧ ∃ m ∈ e.exec, due.pendingAny m sh.regs = true) ∧
    ∃ e, zero.env? (shapeX3 8 { x3 with guard := 0 } []) = some e ∧ e.legal zero (shapeX3 8 { x3 with guard := 0 } []) = true ∧ e.exec = [] :=
  ⟨⟨_, rfl, by decide +kernel⟩, ⟨_, rfl, by decide +kernel, ⟨0, 0⟩, by decide +kernel, by decide +kernel⟩,
   ⟨_, rfl, by decide +kernel, by decide +kernel⟩⟩

/-- A warp whose launch names a handler, with its save area in a page that may be written. -/
def trapped (t : Option TrapRequest) : State :=
  let s := stand { fetchWarp with threads := [(0, lane [])], trap := t }
  let s := { s with mem := { (s.mem.write fetchBase (bytesOf 0x7FF80005 8)) with tlb := page :: s.mem.tlb } }
  { s with quarters := [], queues := [(0, { Queue.unbound with save := 0x40000000 })]
           launches := [(0, { fetchLaunch with record := fetchLaunch.record + BitVec.ofNat 2048 (fetchBase * 2 ^ 256) })] }

def aTrap : TrapRequest := ⟨Code.userTrap, 0, 5, 1, 0, []⟩

/-- The frame of a trap is stored, and its handler's run header is valid. -/
theorem witness_FaultsAndTrapEntry :
    let s := { trapped none with mem := { (trapped none).mem with ops := [(7, ⟨.atomic, 0, 0, [(0, 3)], [⟨0, 0, 9, 4, false, 0, 0, none⟩], [], []⟩)] } }
    let t := trapped (some aTrap)
    (worst [(⟨0, 0⟩, ⟨Code.userTrap, 0⟩)] = some (⟨0, 0⟩, ⟨Code.userTrap, 0⟩) ∧ fatalCode Code.userTrap = false ∧ s.sys.rdbase = 0 ∧
      ∃ w, s.warp? 0 = some w ∧ (s.route w 0).isSome = true ∧ s.drained 0 w = false) ∧
    ((t.warp? 0).any fun w => w.trap == some aTrap && w.resident && !t.ctxEnded (t.ctxOf 0) && t.drained 0 w && t.takeable 0 w &&
      match t.route w 0 with
      | some (lvl, h) =>
        let s1 := (((t.drainSfu 0).leaveRendezvous 0).deferLoads 0 lvl).suspendProducts 0 lvl
        (s1.warp? 0).any fun x =>
          let r := s1.storeLines 0 (s1.frameLines 0 lvl x aTrap ++ s1.hiddenLines 0 x)
          (okOf r.1).isSome && (r.2.warp? 0).isSome && r.2.sys.rdbase == 0 &&
          match r.2.fetchHeader x.core (r.2.ctxOf 0) h.toNat with | .word v => validHeader (v.extractLsb' 0 32) && !h.getLsbD 0 | _ => false
      | none => false) = true :=
  ⟨⟨by decide +kernel, by decide +kernel, rfl, _, rfl, by decide +kernel, by decide +kernel⟩, by decide +kernel⟩

/-- A frame, held at L1, whose one lane stood at a run header; the handler runs at level 1. -/
def framed (mmode : Nat) : State :=
  let s := stand { fetchWarp with threads := [(0, lane [])], level := 1, frameKind := 0 }
  let line (v : Nat) : Copy := ⟨BitVec.ofNat 1024 v, BitVec.allOnes 128, 0, 0, 100, 0, 0⟩
  let at_ (k : Nat) : Nat := s.corePoint 0 * 2 ^ 49 + (0x40000000 + 0x1C000 + k) / 128
  { s with mem := { (s.mem.write fetchBase (bytesOf 0x7FF80005 8)) with
                    copies := [(at_ 0, line (5 * 2 ^ 20 + mmode * 2 ^ 19)), (at_ 0x200, line (fetchBase + 2 * 2 ^ 61))]
                    tlb := page :: s.mem.tlb }
           queues := [(0, { Queue.unbound with save := 0x40000000 })] }

theorem witness_Returns :
    let at_ (s : State) : List Nat := s.frameAt 0 1 :: [s.frameAt 0 1 + 0x200]
    let r := (framed 0).loadLines 0 (at_ (framed 0))
    (∃ w, (framed 0).warp? 0 = some w ∧ w.preempt = false ∧ w.watchQueue = none ∧ w.level = 1 ∧ w.mmode = false) ∧
    ((okOf r.1).map fun vs => ((vs.headD 0).testBit 19, vs.tail.map fun v => (r.2.imageFits 0 0 (LaneImage.ofNat v), (LaneImage.ofNat v).state,
      (LaneImage.ofNat v).hidn, (LaneImage.ofNat v).pdaddr))) = some (false, [(true, 2, 0, 0)]) ∧
    (r.2.warp? 0 = (framed 0).warp? 0 ∧ r.2.sys.rdbase = 0) ∧
    ((okOf ((framed 1).loadLines 0 (at_ (framed 1))).1).map fun vs => (vs.headD 0).testBit 19) = some true := by
  refine ⟨⟨_, rfl, rfl, rfl, rfl, rfl⟩, ?_, ?_, ?_⟩ <;> decide +kernel

/-! Steps that are not instructions -/

/-- A free slot, and a lane at a valid run header. -/
def resting (t : Thread) : State :=
  let s := stand { fetchWarp with threads := [(0, { t with rhdr := 0 })] }
  { s with quarters := [], mem := { (s.mem.write fetchBase (bytesOf 0x7FF80005 8)) with tlb := s.mem.tlb } }

def sfuLane : SfuLane := ⟨0, 0, 9, 0x3F800000⟩

theorem witness_SchedulingAndTime :
    let s := resting fetchThread
    let done := stand { fetchWarp with threads := [(0, { fetchThread with status := .exited })] }
    let late := { zero with now := 4096 }
    let asked := zero.modQuarter 0 fun q => { q with sfu := [⟨Special.sqrt.code, false, 0, [], [sfuLane], []⟩] }
    let served := zero.modQuarter 0 fun q => { q with sfu := [⟨Special.sqrt.code, false, 0, [], [], [sfuLane]⟩] }
    (zero.quarter 0).slot ≠ none ∧
    ((s.quarter 0).slot.isNone && (s.owedIn 0).isEmpty && match s.readyIn 0 with
      | (ready, []) => match seedOf (s.quarter 0).wp (s.quarter 0).lp ready with
        | some r => r.a.lead == .run 0x7FF80005 && (s.formGroup ready r).map (·.m) == [⟨0, 0⟩] && ready.all fun r => r.group.all fun b => !b.t.yielded
        | none => false
      | _ => false) = true ∧
    ((zero.thread? ⟨0, 0⟩).any fun x => x.notBefore ≤ zero.now) = true ∧
    ((done.warp? 0).any fun w => w.resident && !done.ctxEnded (done.ctxOf 0) && w.liveLanes.isEmpty && w.flagsZero (BitVec.allOnes 12) &&
      (done.quarter w.quarterOf).fabric.isEmpty) = true ∧
    ((late.warp? 0).any fun w => w.place?.isSome && w.crept < late.periods) = true ∧
    (clockExists (.home 0) && Tab.getD late.ticks (clockKey (.home 0)) 0 < late.periods) = true ∧
    (asked.quarter 0).sfu = [] ++ ⟨Special.sqrt.code, false, 0, [], [sfuLane], []⟩ :: [] ∧ lowestSet [sfuLane] ≠ [] ∧
    (served.quarter 0).sfu = ⟨Special.sqrt.code, false, 0, [], [], [sfuLane]⟩ :: [] ∧ Special.ofCode Special.sqrt.code ≠ .sincos ∧
    ((lowestSet [sfuLane]).map fun l => (l.wid, l.lane)).Nodup := by
  decide +kernel

/-- A lane in wait 7. -/
def waiting (k : WaitKind) : State :=
  let s := stand { fetchWarp with threads := [(0, { lane [(9, 1)] with status := .waiting 7 })] }
  { s with waits := [(7, ⟨[⟨0, 0⟩], 8, k, 0, false⟩)], queues := [(0, { Queue.unbound with bind := 0x1000, nextSub := 1 })]
           launches := [(0, { fetchLaunch with sub := 1 }), (1, { fetchLaunch with status := .complete })] }

theorem witness_WaitsEnd :
    let stands (s : State) : Bool := match Tab.get? s.waits 7 with | some x => s.waitStands 7 x | none => false
    let only (s : State) : Bool := match Tab.get? s.waits 7 with | some x => s.waitExec x 15 0 == [⟨0, 0⟩] | none => false
    let under := { waiting (.join xe) with launches := [(0, fetchLaunch)] }
    let tk := { waiting (.tkwait { xe with var8 := 1, d := 9 }) with engines := [(0, { EngineQueue.empty with nextSeq := 1, done := [(0, (0, 5))] })] }
    (stands (waiting (.join xe)) && only (waiting (.join xe)) && ((waiting (.join xe)).launchDone 0).isSome && stands under &&
      (under.launchDone 0).isNone) = true ∧
    (stands (waiting (.evwait xe)) && (waiting (.evwait xe)).eventReached xe ⟨0, 0⟩) = true ∧
    (stands (waiting (.evwait { xe with c := 9 })) && !(waiting (.evwait { xe with c := 9 })).eventReached { xe with c := 9 } ⟨0, 0⟩) = true ∧
    (stands tk && (tk.tokenResult 0 (tk.pair ⟨0, 0⟩ 0)).isSome) = true ∧
    (stands (waiting (.watch (some (none, none)))) && stands (waiting (.snapshot 3)) && (waiting (.snapshot 3)).freezeReqs.isEmpty &&
      (waiting (.snapshot 3)).freeze.isNone && stands (waiting (.retry (.absentRoom 0)))) = true := by
  decide +kernel

/-- A request of a leased load of lane 0 at L1, for a line of the page, and the operation that awaits it. -/
def aLoad : Op := ⟨.load false, 0, 0, [(0, 3)], [⟨0, 0, 8, 4, false, 0x40000000, 0x40000000, none⟩], [], []⟩
def aReq (st : Stage) : LineReq := ⟨7, 0x800000, 0, .leased, 0, 0, 0, false, 15, st, none, 0, false, 0x40000000, none⟩
def loading (st : Stage) : State := { zero with mem := { zero.mem with ops := [(7, aLoad)], reqs := [(8, aReq st)] } }

def aCopy (dirty : LineMask) : Copy := ⟨5, BitVec.allOnes 128, dirty, 0, 100, 0, 0⟩

/-- An atomic of lane 0 to a line that its home holds. -/
def anAtomic (p : Option Nat) (g : Grant) : HomeReq := ⟨p, none, 0x800000, 0, 0, 0, 0, 0, [⟨0, 0, 0x40000000, 4, 0, 1, 0⟩], g⟩
def atomicAt (p : Option Nat) (g : Grant) : State :=
  { zero with mem := { zero.mem with homeReqs := [(9, anAtomic p g)], homes := [(0x800000, { HomeLine.fresh with cached := true })] } }

/-- A load from the scratchpad whose line has come. -/
def absent : Op := ⟨.load true, 0, 0, [(0, 3)], [⟨0, 0, 8, 4, false, 0, 0, none⟩], [5], []⟩

theorem witness_MemoryEvents :
    let hit := { loading .l1 with mem := { (loading .l1).mem with copies := [(copyKey (zero.corePoint 0) 0x800000, aCopy 0)] } }
    let came := { zero with mem := { zero.mem with ops := [(7, absent)], scratch := [(5, ⟨1, true, .live 2, false⟩)] } }
    let bad := { loading .home with mem := { (loading .home).mem with homes := [(0x800000, { HomeLine.fresh with poisoned := true })] }, quarters := [] }
    let wb := { zero with now := 70000, mem := { zero.mem with copies := [(copyKey (pointNum (.l1 0)) 0x800000, aCopy 1)] } }
    (((loading .l1).copy? ((loading .l1).corePoint 0) 0x800000).isNone && !(loading .l1).olderRequest 8 (aReq .l1) &&
      (hit.copy? (hit.corePoint 0) 0x800000).any fun c => copyServes c .leased 15 (hit.pts 0) (hit.staleWindow 0)) = true ∧
    (absent.lines.all (fun l => (came.scratchLine l).present && (came.scratchLine l).count != .dropped) &&
      absent.warps.all (fun w => (came.warp? w).all fun x => !x.defers 7)) = true ∧
    (bad.lineBad 0x800000 && ((bad.thread? ⟨0, 0⟩).map (·.status) == some .running) && ((bad.warp? 0).any fun w => w.trap.isNone) && (bad.quarter 0).slot.isNone) = true ∧
    ((atomicAt none .granted).earlierAtomic 9 (anAtomic none .granted) = false ∧ (atomicAt none .granted).lineBad 0x800000 = false ∧
      ((atomicAt none .granted).atomicHome 9 (anAtomic none .granted)).1.isSome = true) ∧
    ((wb.copy? (pointNum (.l1 0)) 0x800000).any fun c => c.dirty != 0 && 65536 ≤ wb.now - c.dirtySince) = true ∧
    (homeOf 0x800000 = pointDie (pointNum (.l1 0)) ∧ (wb.writeBack (pointNum (.l1 0)) 0x800000 none false).1.isSome = true) ∧
    (arbitrationWinner (atomicAt none .sent).slicePointer [(9, 0)] = some 9 ∧
      Tab.get? (atomicAt none .retry).mem.homeReqs 9 = some (anAtomic none .retry)) ∧
    ((atomicAt (some (l2Point 1)) .sent).wantsDiex 1 0x800000 = some 0 ∧
      ((atomicAt (some (l2Point 1)) .sent).grantDiex 1 0x800000 0).1.isSome = true) ∧
    (let r := { loading .home with mem := { (loading .home).mem with homes := [(0x800000, { HomeLine.fresh with dir := .diex 1 })] } }
     (r.home 0x800000).dir = .diex 1 ∧ r.wantsRecall 0x800000 1 = true ∧ r.ctxs.all (fun c => c.2.svcRung.isEmpty) = true) ∧
    -- a leaf of 64 MB pages in the table at 0x100000
    (let table (m : Memory) : Memory := (m.write 0x100000 (bytesOf 0x100201 8)).write (0x100200 + 8 * 2) (bytesOf 0x4000000F 8)
     let u := { zero with mem := table zero.mem }
     match u.walkFrom 0x40000000 0x100000 tableLevels with | .leaf e bits => e == 0x4000000F && bits == 29 | _ => false) = true := by
  decide +kernel

/-- A copy of four bytes of the block's scratchpad to its next line. -/
def aTask : Task where
  seq := 0
  cmd := .cpa [(BitVec.ofNat 64 aliasBase, BitVec.ofNat 64 (aliasBase + 128))] 4
  ctx := 0
  core := 0
  block := 0
  launch := 0
  wid := 0
  flags := [(0, 3)]
  ts := 0
  scope := 3
  fresh := false
  cnt := none
  bars := []
  ring := none
  watched := false
  joined := false
  started := false
  writes := []
  time := 0
  status := 0
  hit := none
  stalled := false
  inst := 0
  rows := none
  cleared := []

/-- The task in the queue of the copy engine of core 0. -/
def tasking (t : Task) : State :=
  let s := padded (own []) 5
  { s with engines := [(queueKey (copyEngine 0) 0, { EngineQueue.empty with tasks := [t], nextSeq := 1 })] }

/-- One participant that has sent its chunk. -/
def meeting : State :=
  let k := BitVec.ofNat 512 (0x40000000 + 0x40010000 * 2 ^ 64 + 2 * 2 ^ 132 + 32 * 2 ^ 160)
  let s := tasking { aTask with cmd := .coll k 32, started := true }
  { s with ctxs := [(0, { fetchCtx with groups := [(0, 1)] })], chunks := [⟨0, 32, BitVec.ofNat 32 (collTag k), 0, 0, 0, [7], 0⟩] }

theorem witness_EnginesRunCommands :
    let s := tasking aTask
    let line : LineWrite := ⟨scratchBase + 128, 9, BitVec.allOnes 128⟩
    let writing := { aTask with started := true, writes := [line] }
    let w := tasking writing
    let spent := tasking { aTask with started := true }
    let failed := tasking { writing with status := Status.tfault }
    ((s.engineQueue (queueKey (copyEngine 0) 0)).tasks = [aTask] ∧ (aTask.stalled = false ∧ aTask.hit = none) ∧
      (s.engineQueue (queueKey (copyEngine 0) 0)).stopped = false ∧ s.ctxEnded 0 = false) ∧
    (match s.taskIndices (copyEngine 0) aTask with
      | (.ok idx, u) => match u.taskReads (copyEngine 0) aTask false (s.destLines aTask) (s.taskSources aTask idx) with
        | (.ok m, v) => (okOf (v.ownLines (copyEngine 0) aTask ((s.taskWrites aTask idx m).map fun x => x.va / 128)).1).isSome
        | _ => false
      | _ => false) = true ∧
    (writing.unwritten = true ∧ writing.writes[0 % writing.writes.length]? = some line ∧ scratchBase ≤ line.va ∧
      (w.scratchLine (slotByte 0 line.va / 128)).count ≠ .dropped) ∧
    (spent.taskPosted (queueKey (copyEngine 0) 0) { aTask with started := true } = false ∧ spent.ringTurn aTask = true) ∧
    ((failed.engineQueue (queueKey (copyEngine 0) 0)).tasks.any fun t => abortStatus t.status && !t.writes.isEmpty && t.started) = true ∧
    (match meeting.engines with
      | [(_, q)] => q.tasks.all fun t => match t.cmd with
        | .coll d sc => meeting.participantsOf 0 sc d == [(0, 0)] && (meeting.chunkFrom ⟨0, sc, BitVec.ofNat 32 (collTag d), 0⟩ (0, 0)).isSome
        | _ => false
      | _ => false) = true := by
  decide +kernel

/-- A line that its home holds. -/
def heldHome : HomeLine := { HomeLine.fresh with cached := true }

/-- Queue 0 with one record in its ring, its completion ring and save area, in a page that may be written. -/
def queued (record : Nat) : State :=
  { zero with
    queues := [(0, { Queue.unbound with bind := 0x1000, ring := 0x40000000, cpl := 0x40010000, save := 0x40020000, slots := 64, producer := 1 })]
    mem := { (zero.mem.write 0x40000000 (bytesOf record 256)) with
             homes := [(0x800000, heldHome), (0x800001, heldHome), (0x800200, heldHome), (0x800202, heldHome)], tlb := page :: zero.mem.tlb } }

theorem witness_LaunchesRun :
    let s := queued fetchLaunch.record.toNat
    let z := queued 0
    let l := Launch.submitted 0 0 0 fetchLaunch.record none 0
    let p : State := { s with warps := [], blocks := [], launches := [(5, { l with status := .eligible })]
                              queues := s.queues.map fun x => (x.1, { x.2 with pending := [5] }) }
    let spent : State := { s with launches := [(0, { fetchLaunch with nextBlock := 1 })], blocks := [(0, { fetchBlock with departed := true })] }
    let posts := s.queues.map fun x => (x.1, { x.2 with completions := [⟨0, 0, 0, 0⟩] })
    let taken (u : State) (c : Option (BitVec 16)) : Bool := match Tab.get? u.queues 0, u.ctxRead 0 0x40000000 128 with
      | some x, (some a, t) => match t.ctxRead 0 0x40000080 128 with
        | (some b, v) => x.enabled && x.producer != x.consumer && x.pending.length < x.capacity &&
            (Tab.get? v.queues 0 == some x) && field (a + 2 ^ 1024 * b) 443 436 == 0 &&
            v.rejection (Launch.submitted 0 0 0 (BitVec.ofNat 2048 (a + 2 ^ 1024 * b)) none 0) false == c
        | _ => false
      | _, _ => false
    ((1#32 : BitVec 32).extractLsb' 0 24 - 0).toNat ≤ 16 ∧ (16 : Nat) < ((17#32 : BitVec 32).extractLsb' 0 24 - 0).toNat ∧
    taken s none = true ∧ taken z (some 1) = true ∧
    (match ({ s with queues := posts } : State).ctxWrite 0 0x40010000 16 ((Completion.mk 0 0 0 0).entry 0) with
      | (some t, _) => (t.ctxWrite 0 (0x40010000 + 16 * 16) 4 1).1.isSome
      | _ => false) = true ∧
    (let p1 := p.heads.foldl (fun t y => (t.makeEligible y.2).skipEmpty y.2) p
     let p2 := p1.placeOrder.foldl (fun t y => t.noteWaiter y.1 y.2) p1
     (p1.placeOrder.findSome? fun y => p2.tryPlace y.1 y.2).isSome = true) ∧
    ((p.placeOrder.map (·.1) = [5]) ∧ (p.findPlace 5 { l with status := .eligible } true).isSome = true ∧
      ((Tab.get? p.queues 0).bind fun q => q.freeSlots l.warps).isSome = true ∧ (p.changeMode 0 l.fuse).1.isSome = true) ∧
    ((0, 5) ∈ p.heads ∧ l.prio + l.promoted < 3 ∧ l.eligibleSince + 1 * msTime ≤ ({ p with elapsed := msTime } : State).elapsed) ∧
    (spent.launchQuiet 0 fetchLaunch = true ∧ ((spent.releaseRegions 0 fun r => r.launch == 0).flushFor 0).1.isSome = true) ∧
    (s.ctx? 0).isSome = true ∧ (0x5000001#64 : BitVec 64).extractLsb' 12 20 ≠ 0 ∧ (0x500000001#64 : BitVec 64).extractLsb' 12 20 = 0 := by
  decide +kernel

/-- A small warp whose one lane waits in a way that counts toward parking. -/
def idle (r : Residence) : State :=
  let w : Warp := { fetchWarp with alloc := 16, residence := r, threads := [(0, { lane [] with status := .waiting 7 })] }
  let line : Copy := ⟨0, BitVec.allOnes 128, 0, 0, 100, 0, 0⟩
  let s := stand w
  { s with quarters := [], waits := [(7, ⟨[⟨0, 0⟩], 8, .join xe, 0, true⟩)]
           queues := [(0, { Queue.unbound with bind := 0x1000, nextSub := 1, save := 0x40000000, slots := 64 })]
           launches := [(0, { fetchLaunch with sub := 1 }), (1, { fetchLaunch with status := .complete })]
           mem := { s.mem with
                    copies := (List.range 32 ++ [0x380, 0x381, 0x384]).map fun i => (copyKey (s.corePoint 0) (0x800000 + i), line),
                    homes := [(0x810000, heldHome), (0x811000, heldHome)], tlb := page :: s.mem.tlb } }

/-- Lane 0 in wait 7; V0:V1 name the first line of its block. -/
def waitsAt (k : WaitKind) (v : Nat) : State :=
  let s := padded { fetchWarp with threads := [(0, { lane [(0, 0xFFF80000), (1, 0x00FFFFFF)] with status := .waiting 7 })] } v
  { s with quarters := [], waits := [(7, ⟨[⟨0, 0⟩], 8, k, 0, false⟩)] }

/-- Lane 0 in wait 7; V0:V1 name a page whose first lines its L1 holds, two of them with a launch record. -/
def waitsThere (k : WaitKind) (record : Nat) : State :=
  let s := idle (.resident 0 0 0 0)
  let w : Warp := { fetchWarp with alloc := 16, threads := [(0, { lane [(0, 0x40000000)] with status := .waiting 7 })] }
  let half (i : Nat) : Nat × Copy := (copyKey (s.corePoint 0) (0x800000 + i), ⟨BitVec.ofNat 1024 (record / 2 ^ (1024 * i)), BitVec.allOnes 128, 0, 0, 100, 0, 0⟩)
  { s with warps := [(0, w)], waits := [(7, ⟨[⟨0, 0⟩], 8, k, 0, false⟩)], launches := [(0, fetchLaunch)]
           mem := { s.mem with copies := [half 0, half 1] ++ s.mem.copies.drop 2 } }

def waited (s : State) : Bool := match Tab.get? s.waits 7 with | some x => s.waitStands 7 x && s.waitExec x 15 0 == [⟨0, 0⟩] | none => false

/-- One group of each kind whose wait can end: its release has been made, its object or record can be read, its write takes effect. -/
theorem witness_WaitingFormsComplete :
    let rel (s : State) (scope : Nat) (ok : State → Bool) : Bool := (s.releaseAll scope [0]).1.any ok
    let c : State := { waitsAt (.crrel xm []) 0 with ctxs := [(0, { fetchCtx with regions := [(0, ⟨0x40000000, 128, 0, false, 0, 0, 0⟩)] })] }
    let fe (f : XM) : Bool := waited (waitsAt (.fence f []) 0) && (!fenceReleases f || rel (waitsAt (.fence f []) 0) f.scope.toNat fun u => u.sys.rdbase == 0)
    let r := waitsAt (.rawait xe) (Machine.Ring.mk 1 2 128 0 0 1 1 0).toNat
    let a := waitsAt (.barv xe) barObj
    let b := waitsAt (.bwait xe) barObj
    let l := waitsThere (.launch xe 0 none) fetchLaunch.record.toNat
    let w := waitsAt (.swr { xs with simm := 0x12, b := 9 } 0) 0
    let saves (k : WaitKind) (act : State → Except Stop Unit × State) : Bool := waited (waitsThere k 0) && (okOf (act (waitsThere k 0)).1).isSome
    (waited c && ((c.ctx? 0).bind fun x => Tab.get? x.regions 0).isSome && c.sys.rdbase == 0) = true ∧
    (fe xm = true ∧ fe { xm with var := 2, scope := 3 } = true ∧ fenceReleases { xm with var := 2, scope := 3 } = true) ∧
    (waited r && (r.ringOf ⟨0, 0⟩ (r.pair ⟨0, 0⟩ 0).toNat).any fun x => x.2.2.ap != x.2.2.wp) = true ∧
    (waited a && a.barrierOf ⟨0, 0⟩ (a.pair ⟨0, 0⟩ 0).toNat == some (0, 0) &&
      rel a (barrierScope (a.barrier 0 0).level) fun t => !(t.barrier 0 0).fwd && decide (1 ≤ (t.barrier 0 0).arr)) = true ∧
    (waited b && b.barrierOf ⟨0, 0⟩ (b.pair ⟨0, 0⟩ 0).toNat == some (0, 0) && (b.barrier 0 0).gen != (b.reg ⟨0, 0⟩ 0).toNat % 1024) = true ∧
    (waited l && rel l 3 fun t =>
      let x := t.launchChecks xe [⟨0, 0⟩]
      x.1.isEmpty && (x.2.launchAll xe 0 [⟨0, 0⟩]).2.1) = true ∧
    (waited (waitsAt (.evsig xe) 0) && rel (waitsAt (.evsig xe) 0) xe.scope.toNat fun _ => true) = true ∧
    (waited (waitsAt (.sgset xs) 1) && !(waitsAt (.sgset xs) 1).groupBusy 0 32 && okOf ((waitsAt (.sgset xs) 1).groupMask xs ⟨0, 0⟩).1 == some 1) = true ∧
    (waited w && match w.sysWrite 0 (some 0) 0x12 (w.swrValue { xs with simm := 0x12, b := 9 } ⟨0, 0⟩) with
      | .written t => !t.ctxEnded 0
      | _ => false) = true ∧
    (saves (.savex { xs with simm := 1 }) (fun s => s.saveWarp { xs with simm := 1 } 0 ⟨0, 0⟩) &&
      saves (.restx { xs with simm := 1 }) fun s => s.restoreWarp { xs with simm := 1 } 0 ⟨0, 0⟩) = true ∧
    (let s := framed 0
     let u : State := { s with warps := s.warps.map fun x => (x.1, { x.2 with threads := x.2.threads.map fun y => (y.1, { y.2 with status := .waiting 7 }) })
                               waits := [(7, ⟨[⟨0, 0⟩], 8, .tret xs, 0, false⟩)], quarters := [], recorders := [(0, { Recorder.empty with stopped := true })] }
     waited u && u.handlerDone 0 && match ({ u with waits := [(7, ⟨[], 8, .tret xs, 0, false⟩)] } : State).tret 0 false with | .done _ => true | _ => false) = true := by
  decide +kernel

theorem witness_FencesRingsAndBarriers_bwait (w : Nat) : (waitsAt (.bwait xe) barObj).patchComes 0 0 w = false := rfl

theorem witness_Parking :
    let s := idle (.resident 0 0 0 0)
    let p := idle (.parking 0 0 0 0)
    let a := idle .parked
    let limit (k : WaitKind) : State := { waiting k with now := 70000 }
    ((s.warp? 0).any fun w => s.mayPark 0 w && !s.ctxEnded (s.ctxOf 0) && w.engineWatches.isEmpty) = true ∧
    ((p.warp? 0).any fun w => let r := p.storeLines 0 (p.wholeImage 0 w)
      (okOf r.1).isSome && (r.2.releaseHome w.core (some 0)).1.any fun v => (v.warp? 0).isSome) = true ∧
    (match a.warp? 0, a.block? 0 with
      | some w, some b => w.threads.any (fun p => a.couldContinue p.2 (a.ctxOf 0)) && match a.warpPlace w b with
        | some (q, k, base) =>
          let t := (a.modWarp 0 fun x => { x with residence := .resident b.core q k base }).comeBack 0
          (t.warp? 0).any fun x => match t.restoreWhole 0 x with
            | (.ok u, _) => (u.warp? 0).any fun y => u.buffersFree 0 x.quarterOf y.records
            | _ => false
        | none => false
      | _, _ => false) = true ∧
    ((Tab.get? (limit (.evwait xe)).waits 7).any fun x => 65536 ≤ 70000 - x.since) = true ∧
    ((Tab.get? (limit (.retry (.writeBlocked 0 0))).waits 7).any fun x => 65536 ≤ 70000 - x.since) = true := by
  decide +kernel

/-- A launch that is being pre-empted, with or without a handler, its warp in a given state. -/
def preempting (handler : Nat) (w : Warp) : State :=
  let s := idle w.residence
  { s with warps := [(0, { w with alloc := 16 })]
           launches := [(0, { fetchLaunch with preempted := some 0, record := fetchLaunch.record + BitVec.ofNat 2048 (handler * 2 ^ 320) })] }

theorem witness_Preemption :
    let plain := { fetchWarp with threads := [(0, lane [])] }
    let s := preempting 0 { plain with graceOver := true, level := 2 }
    let a := preempting 0x40000000 { plain with level := 1, frameKind := 1, threads := [(0, { lane [] with acked := true, rhdr := 0 })] }
    let b : Block := { fetchBlock with lines := 1 }
    let g : State := { preempting 0 { plain with residence := .saved false } with blocks := [(0, b)] }
    let r := { g with launches := [(0, fetchLaunch)], recorders := [(0, { Recorder.empty with stopped := true })] }
    let c := g
    (fetchLaunch.preempted = none ∧ fetchLaunch.get 375 320 = 0 ∧ (s.launch? 0).any (fun l => l.preempted == some 0) = true ∧
      (a.launch? 0).any (fun l => l.get 375 320 != 0) = true) ∧
    ((s.launch? 0).any fun l => s.elapsed < 0 + l.grace && 0 + l.grace ≤ ({ s with elapsed := 2 ^ 60 } : State).elapsed) = true ∧
    ((s.warp? 0).any fun w => w.resident && !w.acknowledged && !s.holdsSlot 0 w && s.drained 0 w &&
      let t := (((s.drainSfu 0).leaveRendezvous 0).deferLoads 0 3).suspendProducts 0 3
      (t.warp? 0).any fun x =>
        let r := t.storeLines 0 (t.wholeImage 0 x ++ ([1, 2].filter fun k => decide (x.level < k)).flatMap fun k =>
          t.frameLines 0 k x ⟨Code.preempt, 1, 0, 0, 0, []⟩)
        (okOf r.1).isSome && (r.2.releaseHome w.core (some 0)).1.any fun v => v.laneCycles.isEmpty && (v.warp? 0).any fun y => y.engineWatches.isEmpty)
        = true ∧
    ((a.warp? 0).any fun w => w.resident && w.acknowledged && !a.holdsSlot 0 w && !w.graceOver && a.settled 0 w &&
      w.threads.all (fun p => p.2.status == .running && p.2.rhdr == 0) &&
      let r := a.storeLines 0 (headLines w (a.saveSlot 0) 0 true true false ++ a.bufferImage w (a.saveSlot 0))
      (okOf r.1).isSome && (r.2.releaseHome w.core (some 0)).1.any fun v => v.laneCycles.isEmpty && (v.warp? 0).any fun y => y.engineWatches.isEmpty)
      = true ∧
    (c.padQuiet 0 b && ((c.warp? 0).all fun w => w.place?.isNone) && ((Tab.get? c.queues 0).any fun q =>
      match readyAll (fun (v : State) (x : Nat × Nat) => v.ctxWrite 0 (q.blockSlotAt 0 + 0 + 128 * x.1) 128 x.2) c
          ((List.range 1).zip (b.pad.map fun i => (c.scratchLine i).data.toNat)) with
      | (some t, _) => (t.ctxWrite 0 (q.blockSlotAt 0 + 0x80000) 128 0).1.isSome
      | _ => false)) = true ∧
    ((r.warp? 0).any fun w => w.isSaved && match r.warpPlace w b with
      | some (q, k, base) => (r.readmitSaved 0 0 q k base).1.isSome
      | none => false) = true := by
  decide +kernel

/-- A fault of a page that waits to be posted, and a service that waits for its reply. -/
def faulting : State :=
  { zero with sys := { zero.sys with fqbase := 0x40000000 }
              mem := { zero.mem with homes := [(0x800000, heldHome)] }
              host := { zero.host with faultEntries := [.page 0 5 .read 0], faults := [⟨0, 5, .read, 0, 1, none, 0, 0⟩] } }

def anEntry : ServiceEntry := ⟨0, 0, 8, 8, 0, 1, false, 0, 0⟩
def replying (status : Nat) : State :=
  let s := stand { fetchWarp with threads := [(0, { lane [] with status := .service 0 8, rhdr := 0 })] }
  { s with ctxs := [(0, { fetchCtx with svcbase := 0x40000000, svc := [(0, anEntry)] })]
           mem := { (s.mem.write 0x40000000 (bytesOf (status * 2 ^ 320) 128)) with homes := [(0x800000, heldHome)], tlb := page :: s.mem.tlb } }

theorem witness_HostAnswers :
    let ended : State := { tasking { aTask with started := true, status := Status.tfault } with ctxs := [(0, { fetchCtx with ended := true })], launches := [] }
    let reads (s : State) (status : Nat) : Bool :=
      match (s.modCtx 0 fun c => { c with svcRung := c.svcRung ++ [0] }).deviceAddress 0 0x40000000 .read with
      | .ok (pa, t) => match t.deviceRead 0 pa 128 with
        | (some w, u) => field w 320 320 == status && (u.ctx? 0 == some { fetchCtx with svcbase := 0x40000000, svc := [(0, anEntry)], svcRung := [0] }) &&
            (u.warp? 0).any Warp.resident && (u.thread? ⟨0, 0⟩).any fun x => x.status == .service 0 8 && x.rhdr == 0
        | _ => false
      | _ => false
    ((faulting.host.faultEntries.head?.bind faulting.faultEntryWord).isSome && (faulting.host.fqNext - faulting.host.fqCons).toNat < faulting.sys.fqcnt.toNat &&
      (({ faulting with host := { faulting.host with faultEntries := [] } } : State).deviceWrite packageUse 0x40000000 32 1).1.isSome) = true ∧
    (faulting.sys.fqcnt.toNat ≤ ((64#32 : BitVec 32) - 0).toNat) ∧ (faulting.ctxs.all fun c => c.2.svcRung.isEmpty) = true ∧
    reads (replying 0) 0 = true ∧ reads (replying 1) 1 = true ∧ anEntry.d + 3 < 255 ∧
    zero.ctxEnded 0 = false ∧ ended.ctxEnded 0 = true ∧
    ended.allTasks.filter (fun x => x.1 % 4096 == 0) = [(queueKey (copyEngine 0) 0, { aTask with started := true, status := Status.tfault })] := by
  decide +kernel

/-- A package whose recorders run, with a freeze under way. -/
def aFreeze : Freeze := ⟨1, 0, none, 0, 3, 0, [], [1], 0⟩
def freezing (stopped : List Nat) : State :=
  let p : Part := { at0.part with cores := 3 }
  { at0 with part := p, freeze := some aFreeze, recorders := stopped.map fun c => (c, { Recorder.empty with stopped := true }) }

theorem witness_FreezesAndCapsules :
    let req : FreezeRequest := ⟨1, 0, none, 0, 3, 0, []⟩
    let asks : State := { at0 with freezeReqs := [req] }
    let joins : State := { freezing [] with freezeReqs := [req] }
    let kept : State := { at0 with capsule := some ⟨aFreeze, [(0, { Recorder.empty with ring := [(0, 5)] })], [(0, 2)], 0, 0⟩ }
    at0.sys.rdbase = 0 ∧
    (asks.freezeReqs.find? (fun r => r.origin == 0) = some req ∧ asks.freeze = none ∧ asks.capsule = none) ∧
    (joins.freezeReqs.find? (fun r => r.origin == 0) = some req ∧ joins.freeze = some aFreeze ∧ joins.allStopped = false) ∧
    ((freezing [0]).freeze = some aFreeze ∧ (freezing [0]).part.cores.getLsbD 1 = true ∧ ((freezing [0]).recorder 1).stopped = false) ∧
    ((freezing [0, 1]).allStopped = true ∧ (freezing [0, 1]).mgmt.resetPending = false ∧ (freezing [0, 1]).capsule = none) ∧
    (at0.mgmt.stage = 3 ∧ State.reset.mgmt.stage ≠ 3) ∧
    (kept.capsule.isSome = true ∧ viewAllowed 1 (.tenant 1) = true ∧ viewAllowed 0 (.tenant 1) = false ∧ viewAllowed 0 .provider = true) ∧
    (Tab.getD ({ at0 with now := 65536 } : State).lcFlushed 0 0 < (65536 - at0.mgmt.released) / 65536 ∧ at0.laneCycles = []) := by
  decide +kernel

/-- A recorder whose latest TIMEBASE is not its core's, whatever cycle its core counted from. -/
theorem witness_FreezesAndCapsules_timebase : ∃ s : State, s.sys.rdbase = 0 ∧ s.mgmt.stage = 3 ∧ (s.recorder 0).stopped = false ∧
    (s.cycle 0).extractLsb' 30 34 ≠ (s.recorder 0).timebase ∧ Tab.getD (s.recorder 0).latest 4 0 ≠ s.now + 1 := by
  have apart : ∀ c : BitVec 34, c ≠ c + 1 := by intro c h; bv_omega
  exact ⟨{ at0 with recorders := [(0, { Recorder.empty with timebase := (at0.cycle 0).extractLsb' 30 34 + 1 })] }, rfl, rfl, rfl, apart _, by decide⟩

/-- Requests at channel 0. -/
def request (cls : Nat) (w : Option (Line × LineMask × Nat)) (issued : Bool) (alerts : Nat) : DramReq := ⟨0, cls, 0, 0x800000, w, issued, alerts⟩
def channel (l : List DramReq) : State := { at0 with dram := [(0, l)] }

def aMove (next : Nat) : Migration := ⟨0x40000000, 0x40010000, 0, 0, 3, 0, 0, next, [], none, false, false⟩

theorem witness_MemoryChannels :
    let changed : State := { at0 with mem := { at0.mem with homes := [(0x800000, { heldHome with owner := some 0 })], dram := [(0x800000, (7, 0))] } }
    let swapping (p : BitVec 512) : State := { at0 with swaps := [(1, ⟨3, 4, p⟩)] }
    (dramChoice 0 (dramReady [request 0 none false 0]) = some (request 0 none false 0, 0) ∧
      dramChoice 4 (dramReady [request 2 none false 0]) = some (request 2 none false 0, 5) ∧ windowClass 4 = 2) ∧
    ([request 1 (some (5, 15, 0)) true 0].find? (·.issued) = some (request 1 (some (5, 15, 0)) true 0) ∧
      [request 1 none true 0].find? (·.issued) = some (request 1 none true 0) ∧
      ((changed.home 0x800000).cached = true ∧ (changed.home 0x800000).owner ≠ none) ∧ at0.ctxs.all (fun c => c.2.svcRung.isEmpty) = true) ∧
    ([request 1 none true 4].filter (·.issued) = [request 1 none true 4] ∧ [request 1 none true 3].filter (·.issued) = [request 1 none true 3]) ∧
    (isHost (0x800000 * 128) = false ∧ isRemote (0x800000 * 128) = false ∧ (changed.channelOf 0x800000).isSome = true ∧
      Tab.get? changed.mem.dram 0x800000 = some (7, 0) ∧ changed.failedChannels = []) ∧
    (isHost (2 ^ 47 * 128) = true ∧ at0.migrations = [] ∧ Migration.holds { aMove 5 with src := 2 ^ 54 } (2 ^ 47) = true) ∧
    ((swapping 0).swaps = [(1, ⟨3, 4, 0⟩)] ∧ (0 : BitVec 512).getLsbD 0 = false ∧ (swapping 0).dram = [] ∧
      (BitVec.twoPow 512 0 ≠ BitVec.allOnes 512) ∧
      ((BitVec.allOnes 512 ^^^ BitVec.twoPow 512 511) ||| BitVec.twoPow 512 511 = BitVec.allOnes 512) ∧
      ((List.range 511).all fun j => (BitVec.allOnes 512 ^^^ BitVec.twoPow 512 511).getLsbD j) = true ∧
      (BitVec.allOnes 512 ^^^ BitVec.twoPow 512 511).getLsbD 511 = false) := by
  decide +kernel

def moving (next : Nat) (poisoned : Bool) : State :=
  { at0 with migrations := [aMove next], sys := { at0.sys with flowmode := 15 }
             mem := { at0.mem with
                      copies := if poisoned then [] else [(copyKey (l2Point 0) (0x800000 + next), aCopy 0)]
                      homes := [(0x800000 + next, { heldHome with poisoned := poisoned, dir := if poisoned then .home else .diex 0 }),
                                (0x800200 + next, { heldHome with dir := .migrating })] } }

theorem witness_MigrationsAndNotices :
    let n : State := { faulting with sys := { faulting.sys with hpnbase := 0x40000000 }, host := { faulting.host with notices := [⟨2, 0, 0, 0, 0, 0⟩] } }
    let opens (t : State) (m : Migration) (i : Nat) : Bool :=
      !isHost ((0x800200 + i) * 128) && !isRemote ((0x800200 + i) * 128) &&
      match t.openOwned (0x800200 + i) 0 (BitVec.allOnes 128) false none true (some (48, m.seq.toNat)) (engineIndex 48) (fun _ => false) with
      | (true, u) => u.migrations == [m] && u.sys.rdbase == 0 && u.host.notices.isEmpty
      | _ => false
    let copies (next : Nat) : Bool :=
      let m := aMove next
      match (moving next false).migrationRead m with
      | (.data d _, t) =>
        let m' := { m with next := next + 1, copied := [(next, d)] }
        t.migrations == [m] && (t.putMigration m m').nextMigrated m' == some (next, d) && opens (t.putMigration m m') m' next
      | _ => false
    let spent : Migration := { aMove 512 with copied := [(511, 7)] }
    let last : State := { moving 511 false with migrations := [spent] }
    ((n.host.hpnNext - n.host.hpnCons).toNat < n.sys.hpncnt.toNat ∧ n.sys.hpncnt.toNat ≤ ((64#32 : BitVec 32) - 0).toNat ∧
      (n.deviceWrite packageUse 0x40000000 32 (Notice.entry ⟨2, 0, 0, 0, 0, 0⟩ n.host.hpnNext)).1.isSome = true) ∧
    copies 0 = true ∧ copies 511 = true ∧ (last.nextMigrated spent = some (511, 7) ∧ opens last spent 511 = true) ∧
    (({ at0 with keys := [] } : State).keyGone 0 = true) ∧
    (match (moving 5 true).migrationRead (aMove 5) with
      | (.bad, t) => t.migrations == [aMove 5] && t.sys.rdbase == 0 && t.host.notices.isEmpty
      | _ => false) = true := by
  decide +kernel

theorem witness_HostBridge :
    let ask (op : BridgeOp) : State := { at0 with mem := { at0.mem with bridge := [⟨2 ^ 47, true, op⟩] } }
    let host (h : Half) (d : Directory) : State := { at0 with mem := { at0.mem with homes := [(2 ^ 47, { heldHome with half1 := h, dir := d })] } }
    let dev : State := { at0 with mgmt := { at0.mgmt with linkTrained := true }, mem := { at0.mem with homes := [(0x800000, heldHome)] } }
    ([BridgeOp.rdShared, .rdOwn, .itoMWr, .rdCurr].all fun op => (ask op).asked (2 ^ 47) true == some ⟨2 ^ 47, true, op⟩) = true ∧
    (2 : Nat) ^ 47 < 2 ^ 49 ∧ at0.ctxs.all (fun c => c.2.svcRung.isEmpty) = true ∧
    isHost (2 ^ 47 * 128) = true ∧ (((host .e .home).home (2 ^ 47)).dir = .home ∧ ((host .e .home).home (2 ^ 47)).half true ≠ .i) ∧
    ((host .i .home).home (2 ^ 47)).half true = .i ∧ ((host .s (.engine [(1, 0)])).home (2 ^ 47)).dir = .engine [(1, 0)] ∧
    (dev.hostServed = true ∧ dev.deviceLine 0x800000 = true ∧ (dev.home 0x800000).dir = .home ∧ dev.asked 0x800000 false = none ∧
      dev.lineHeld 0x800000 = true ∧ dev.mem.counted = [] ∧ dev.mem.homeReqs = []) ∧
    (⟨2 ^ 47, true, .biSnpData⟩ ∈ (ask .biSnpData).mem.bridge ∧ ⟨2 ^ 47, true, .biSnpInv⟩ ∈ (ask .biSnpInv).mem.bridge) := by
  decide +kernel

/-- A port in a state, and a posted write that a warp released. -/
def ported (st : Nat) : State :=
  { loading .sent with host := { zero.host with ports := [(3, { Port.untrained with status := st })], posted := [(9, ⟨some 0, none, 1, 0x800000, false, none, 15, 0⟩)] }
                       mem := { (loading .sent).mem with homes := [(0x800000, heldHome)] } }

theorem witness_PortsAndPeers :
    let s := ported 2
    let retraining : State := { ported 1 with elapsed := (ported 1).retrainBound }
    (s.port 3).status = 2 ∧ ((ported 0).port 3).status ≠ 2 ∧
    (let s1 := (s.hear (localLine 0x800000) 5).hear (localLine 0x800000) 9
     Tab.get? s1.mem.counted (localLine 0x800000) = none ∧ s1.keyGone 0 = false ∧ s1.backed (localLine 0x800000 * 128) = true ∧
       (s1.openOwned (localLine 0x800000) 0 15 false none true none (remoteIndex 1) fun _ => false).1 = true) ∧
    (s.ctxs.all (fun c => c.2.svcRung.isEmpty) = true ∧ s.orderedFlow collectiveFlow = true ∧ s.host.collHeld = [] ∧
      ({ s with sys := { s.sys with flowmode := 0 } } : State).orderedFlow collectiveFlow = false) ∧
    (Tab.get? s.mem.reqs 8 = some (aReq .sent) ∧ Tab.get? s.mem.ops 7 = some aLoad ∧ s.copy? (s.corePoint 0) 0x800000 = none) ∧
    ((Tab.get? s.host.posted 9).any fun p => p.rel == some 0 && p.task.isNone) = true ∧ (s.warp? 0).isSome = true ∧ s.host.outbox = [] ∧
    (ported 1).sys.rdbase = 0 ∧ ((ported 1).port 3).status = 1 ∧ (ported 1).elapsed - ((ported 1).port 3).since < (ported 1).retrainBound ∧
    retraining.retrainBound ≤ retraining.elapsed - (retraining.port 3).since ∧ widthCode 8 = some 2 := by
  decide +kernel

theorem witness_StartAndPower :
    let off : State := { State.reset with mgmt := { State.reset.mgmt with powered := false } }
    let stage (n : BitVec 2) : State := { State.reset with mgmt := { State.reset.mgmt with stage := n } }
    let warm : State := { at0 with mgmt := { at0.mgmt with tout := 750, linkTrained := true } }
    off.mgmt.powered = false ∧ (State.reset.mgmt.powered = true ∧ State.reset.mgmt.stage = 0 ∧ State.reset.mgmt.linkTrained = false) ∧
    State.reset.mgmt.resetAt + 1000 * msTime ≤ ({ State.reset with elapsed := 1000 * msTime } : State).elapsed ∧
    State.reset.elapsed < State.reset.mgmt.resetAt + 1000 * msTime ∧ (stage 1).mgmt.stage = 1 ∧ ((stage 2).mgmt.stage = 2 ∧ (stage 2).mgmt.fail = false) ∧
    (freezing [0, 1]).assembling = true ∧ (at0.assembling = false ∧ at0.mem.frames = [] ∧ at0.swaps = []) ∧
    at0.mgmt.levelAt + msTime ≤ ({ at0 with elapsed := msTime } : State).elapsed ∧ at0.mgmt.level ≤ 8 ∧
    (warm.mgmt.halted = false ∧ 750 ≤ warm.mgmt.tout.toNat ∧ at0.mgmt.tout.toNat < 750) ∧
    (warm.mgmt.stage ≠ 0 ∧ warm.mgmt.linkTrained = true ∧ 2000 ≤ ((5000#64 : BitVec 64).extractLsb' 0 16).toNat ∧
      ((7000#64 : BitVec 64).extractLsb' 0 16).toNat > 6800) := by
  decide +kernel

/-- A context with a lane-cycle block at its page, and no warp of it. -/
def counting : State :=
  { at0 with warps := [], launches := [], ctxs := [(0, { fetchCtx with lcbase := 0x40000000 })], laneCycles := [(laneKey 0 0, [(0, 9)])]
             mem := { at0.mem with homes := (List.range 32).map fun i => (0x800000 + i, heldHome), tlb := [page] } }

/-- A descriptor of frames at a physical address that is held. -/
def describing (d : Nat) : State :=
  let s : State := { at0 with warps := [], ctxs := [] }
  { s with mem := { (s.mem.write 0x20000 (bytesOf d 32)) with homes := [(0x400, heldHome)] } }

theorem witness_SystemRegisterWrites :
    let move := 0x40000000 + 0x40010000 * 2 ^ 64
    let swap := 0x40000000 + 2 ^ 51 * 2 ^ 64
    let far := 0x40000000 + (2 ^ 51 + 2 ^ 16) * 2 ^ 64
    let reads (s : State) (d : Nat) : Bool := (s.readDescriptor 0x20000).1 == some d
    (at0.quietBut none = false ∧ counting.quietBut none = true) ∧ (counting.ctx? 0).any (fun c => !c.ended) = true ∧
    ({ counting with ctxs := [(0, { fetchCtx with ended := true })] } : State).ctxEnded 0 = true ∧ (at0.launch? 0).isSome = true ∧
    (counting.queueBusy = false ∧ at0.queueBusy = true) ∧
    (match (counting.withCtx 0).readBins 0 0x40000000 8 with | (some _, t) => (t.ctx? 0).isSome | _ => false) = true ∧
    (match counting.translate 0 0 (0x40000000 + counterOffset 0) .write with
      | (.ok pa, t) => pa % 8 == 0 && !isHost pa && !isRemote pa && match t.flushLine 0 (pa / 128) with
        | (some u, _) => (u.openOwned (pa / 128) 0 (byteMask (pa % 128) 8) true none true none 0 fun h => h.core == 0).1
        | _ => false
      | _ => false) = true ∧
    (at0.keyFree 0 = false ∧ counting.keyFree 0 = true) ∧
    (reads (describing move) move && (describing move).deviceFrame 0x40010000 && (describing move).deviceFrame 0x40000000 &&
      (frameLinesOf 0x40010000).all fun l => ((describing move).home l).dir == .home) = true ∧
    (reads (describing 5) 5 && !(describing 5).deviceFrame 5) = true ∧
    (reads (describing swap) swap && (describing swap).deviceFrame (2 ^ 51) && (homeQuay 0x40000000 == homeQuay (2 ^ 51)) &&
      (describing swap).inHbm 0x40000000 && !(describing swap).inHbm (2 ^ 51)) = true ∧
    (reads (describing far) far && homeQuay 0x40000000 != homeQuay (2 ^ 51 + 2 ^ 16)) = true ∧
    ((describing 0).ctxs = [] ∧ at0.ctxs ≠ []) := by
  decide +kernel

/-! ### The machine as a whole -/

theorem witness_StepRunsDecoded :
    let s := State.reset.withFetchWord 32 1
    s.mgmt.powered = true ∧
    (match s.fetchAddress 0 0 fetchBase with
      | .ok pa => ((s.home (pa / 128)).key == s.keyTag 0) && pa % 2 == 0 && !s.keyGone 0
      | _ => false) = true ∧
    (s.event = none ∧ s.mgmt.halted = false ∧ ({ s with mgmt := { s.mgmt with halted := true } } : State).mgmt.halted = true) ∧
    ((s.env? { len := 0, guard := 15, sense := 0 }).any fun e => match s.fetchInstr e.core (s.ctxOfGroup e.group) e.pc with
      | .word w => (okOf (decode w)).isSome
      | _ => false) = true ∧
    (let z := State.reset.withFetchWord 32 0xFFFFFFFF
     (z.env? { len := 0, guard := 15, sense := 0 }).any fun e => match z.fetchInstr e.core (z.ctxOfGroup e.group) e.pc with
      | .word w => (okOf (decode w)).isNone
      | _ => false) = true ∧
    (let z : State := { s with mem := { s.mem with tlb := [] } }
     (z.env? { len := 0, guard := 15, sense := 0 }).any fun e => match z.fetchInstr e.core (z.ctxOfGroup e.group) e.pc with
      | .fault _ => true
      | _ => false) = true ∧
    (({ s with quarters := [] } : State).env? { len := 0, guard := 15, sense := 0 } = none ∧ s.flows = [] ∧ s.host.writes = []) ∧
    (encode .memoryTrained = none ∧ comesAbout s .powerLoss = true ∧ encode (.mov16 0 0) ≠ none) := by
  decide +kernel

theorem witness_DecodeEncode :
    (Instr.mov16 0 0).wf = true ∧ encode (.mov16 0 0) = some ⟨0, 2⟩ ∧ decode 0 = .ok (.mov16 0 0, 2) := ⟨rfl, rfl, rfl⟩

theorem witness_MachineGoesOn :
    State.reset.mgmt.powered = true ∧ State.reset.event = none ∧
    ({ State.reset with mgmt := { State.reset.mgmt with powered := false } } : State).mgmt.powered = false := by
  decide

theorem witness_StepKeepsTime : State.reset.timely ∧ ∃ t, step { State.reset with mgmt := { State.reset.mgmt with halted := true } } = .next t :=
  ⟨⟨Nat.le_refl _, Nat.le_refl _⟩, _, rfl⟩

/-- A memory in its canonical form that lists a byte, and a line whose key is its context's. -/
theorem witness_MemoryForm :
    (Memory.empty.setByte 5 7).wf = true ∧ Memory.empty.wf = true ∧ (zero.home 0x800000).key = zero.keyTag 0 ∧ isHost (2 ^ 47 * 128) = true := by
  decide +kernel
end Sys2Proof.Tests
end

section
/-! PROOF. How a meaning that goes through one of the shared operations gives what `Op1`, `Op2`, `Op3`, `OpI`, `Gives` and `Tests` say, and
what an accepted 64-bit form holds in its fields (R65, R70, R87). -/

namespace Sys2Proof.Machine

open Sys2Proof

/-! ### Results in one register -/

section results
variable {i : Instr} {s : State} {len : Nat}

theorem op1_of_exec {f : X3} {g h : Word → Word} (hx : exec i s = .next (s.op1 len f g)) (hg : ∀ p, g p = h p := by intros; rfl) :
    Op1 i len f s h := by
  obtain rfl : g = h := funext hg
  exact writes_of_issue hx

theorem op2_of_exec {f : X3} {g h : Word → Word → Word} (hx : exec i s = .next (s.op2 len f g))
    (hg : ∀ p q, g p q = h p q := by intros; rfl) : Op2 i len f s h := by
  obtain rfl : g = h := funext fun p => funext (hg p)
  exact writes_of_issue hx

theorem op3_of_exec {f : X3} {g h : Word → Word → Word → Word} (hx : exec i s = .next (s.op3 len f g))
    (hg : ∀ p q r, g p q r = h p q r := by intros; rfl) : Op3 i len f s h := by
  obtain rfl : g = h := funext fun p => funext fun q => funext (hg p q)
  exact writes_of_issue hx

theorem opI_of_exec {f : XI} {g h : Word → Word → Word} (hx : exec i s = .next (s.opImm len f g))
    (hg : ∀ p q, g p q = h p q := by intros; rfl) : OpI i len f s h := by
  obtain rfl : g = h := funext fun p => funext (hg p)
  exact writes_of_issue hx

theorem Writes.of_eq {sh : Shape} {d : Nat} {v w : Member → Word} (hw : Writes i s sh d v) (h : ∀ m, v m = w m) : Writes i s sh d w :=
  (funext h : v = w) ▸ hw

theorem Writes.gives {sh : Shape} {d : Nat} {v : Member → Word} {P : Member → Word → Prop} (hw : Writes i s sh d v) (hv : ∀ m, P m (v m)) :
    Gives i s sh d P := ⟨v, hv, hw⟩

/-- R98: a meaning that writes to the predicate of its D field what a test says of each thread. -/
theorem tests_of_issue {sh : Shape} {d : BitVec 8} {v : State → Member → Bool} {P : Member → Prop}
    (hx : exec i s = .next (s.issue sh fun e u => .done (e.writePred u (predOf d) (v u)))) (hv : ∀ m, v s m = true ↔ P m) :
    Tests i s sh d P := fun hd => ⟨v s, hv, writesPred_of_issue hd hx⟩

end results

/-- R65: what one operation gives holds of the 32-bit and of the 64-bit form of the instruction that goes through it. -/
theorem both_of_op {F : Type} {i4 : Instr} {f4 : F} {i8 : F → Instr} {P : Instr → Nat → F → Prop} {s : State}
    (op : Nat → F → State → State) (hP : ∀ i n f, exec i s = .next (op n f s) → P i n f)
    (h4 : exec i4 s = .next (op 4 f4 s) := by rfl) (h8 : ∀ f, exec (i8 f) s = .next (op 8 f s) := by intro; rfl) :
    Both i4 f4 i8 P :=
  ⟨hP _ _ _ h4, fun f => hP _ _ _ (h8 f)⟩

/-! ### Results in a register and a predicate -/

/-- R27: what an instruction whose own effect is done leaves of that effect. -/
theorem kept_of_done {i : Instr} {s own : State} {sh : Shape} {e : Env} {body : Env → State → Effect} (h : Issues s sh e)
    (hx : exec i s = .next (s.issue sh body)) (hb : body e s = .done own) : ∃ t, exec i s = .next t ∧ SameRegs own t ∧ Kept own t :=
  ⟨_, hx.trans (congrArg _ (State.issue_done h hb)),
    (SameRegs.of_threads fun m => State.thread?_charge _ _ _ _ _ m).trans (SameRegs.of_retire _ _ _),
    (Kept.of_charge _ _ _ _ _).trans (Kept.of_retire _ _ _)⟩

theorem State.isSome_write (s : State) (l : List Member) (d : Nat) (v : Member → Word) (k : Member) :
    ((l.foldl (fun t m => t.setReg m d (v m)) s).thread? k).isSome = (s.thread? k).isSome := by
  induction l generalizing s with
  | nil => rfl
  | cons m l ih => rw [List.foldl_cons, ih, State.isSome_setReg]

/-- R27, R92: a meaning that writes one register and one predicate of each executing thread. -/
theorem writesBoth_of_issue {i : Instr} {s : State} {sh : Shape} {d p : Nat} {v : State → Member → Word} {q : State → Member → Bool}
    (hp : p < 12) (hx : exec i s = .next (s.issue sh fun e u => .done (e.writePred (e.write u d (v u)) p (q u)))) (e : Env)
    (h : Issues s sh e) :
    ∃ t, exec i s = .next t ∧ (∀ m ∈ e.exec, t.reg m d = v s m) ∧ (∀ m ∈ e.exec, t.pred m p = q s m) ∧
      KeepsRegs s t e.exec [d] ∧ KeepsPreds s t e.exec [p] ∧ Kept s t := by
  obtain ⟨t, ht, ⟨hregs, hpreds⟩, hk⟩ := kept_of_done h hx rfl
  have hsome : ∀ m ∈ e.exec, (s.thread? m).isSome := fun m hm => h.isSome hm
  have hsome' : ∀ m ∈ e.exec, ((e.write s d (v s)).thread? m).isSome := fun m hm =>
    (State.isSome_write s e.exec d (v s) m).trans (hsome m hm)
  have hreg : ∀ m r, t.reg m r = if m ∈ e.exec ∧ r = d then v s m else s.reg m r := fun m r =>
    (hregs m r).trans ((State.reg_writePred _ _ _ _ _ _).trans (State.reg_write s e.exec d (v s) hsome m r))
  have hpred : ∀ m r, t.pred m r = if m ∈ e.exec ∧ r = p then q s m else s.pred m r := fun m r => by
    rw [hpreds, Env.writePred, State.pred_writePred _ _ _ _ hsome' hp, Env.write, State.pred_write]
  have hown : Kept s (e.writePred (e.write s d (v s)) p (q s)) :=
    (Kept.of_foldl _ (fun t m => Kept.of_setReg t m d (v s m)) s e.exec).trans
      (Kept.of_foldl _ (fun t m => Kept.of_setPred t m p (q s m)) _ e.exec)
  refine ⟨t, ht, fun m hm => ?_, fun m hm => ?_, fun m r hn => ?_, fun m r hn => ?_, hown.trans hk⟩
  · rw [hreg, if_pos ⟨hm, rfl⟩]
  · rw [hpred, if_pos ⟨hm, rfl⟩]
  · rw [hreg, if_neg]
    exact fun ⟨hm, hr⟩ => hn.elim (· hm) (· (hr ▸ List.mem_singleton_self _))
  · rw [hpred, if_neg]
    exact fun ⟨hm, hr⟩ => hn.elim (· hm) (· (hr ▸ List.mem_singleton_self _))

/-! ### Accepted fields (R70) -/

/-- What the fields of an accepted X3 form hold. -/
structure X3Follows (f : X3) (r : X3Rule) : Prop where
  guard : guardOk f.guard f.sense = true
  d : r.d f.d.toNat = true
  a : r.a f.a.toNat = true
  b : r.b f.b.toNat = true
  c : r.c f.c.toNat = true
  scope : r.scope f.scope.toNat = true
  ovf : r.ovf f.ovf.toNat = true
  ty : r.ty f.ty.toNat = true
  rm : r.rm f.rm.toNat = true

theorem X3Follows.of_meets {f : X3} {r : X3Rule} (h : f.meets r = true) : X3Follows f r := by
  simp only [X3.meets, Bool.and_eq_true] at h
  obtain ⟨⟨⟨⟨⟨⟨⟨⟨⟨⟨hg, hd⟩, ha⟩, hb⟩, hc⟩, hs⟩, ho⟩, ht⟩, hr⟩, -⟩, -⟩ := h
  exact ⟨hg, hd, ha, hb, hc, hs, ho, ht, hr⟩

/-- An entry whose form is judged by a rule alone. -/
theorem accepts_of_meets {opc : BitVec 9} {i : X3 → Instr} {P : X3 → Prop} (r : X3Rule) (hP : ∀ f, X3Follows f r → P f)
    (he : ∀ f, encode (i f) = some (Code.of64 (f.word opc)) := by intro; rfl) (hw : ∀ f, (i f).wf = f.meets r := by intro; rfl) :
    Accepts opc i P :=
  fun f => ⟨he f, fun h => hP f (.of_meets ((hw f).symm.trans h))⟩

theorem acceptsI_of_meets {opc : BitVec 9} {i : XI → Instr} {P : XI → Prop} (d a imm : Nat → Bool)
    (hP : ∀ f : XI, d f.d.toNat = true → a f.a.toNat = true → P f)
    (he : ∀ f, encode (i f) = some (Code.of64 (f.word opc)) := by intro; rfl) (hw : ∀ f, (i f).wf = f.meets d a imm := by intro; rfl) :
    AcceptsI opc i P := by
  refine fun f => ⟨he f, fun h => ?_⟩
  rw [hw f, XI.meets] at h
  simp only [Bool.and_eq_true] at h
  obtain ⟨⟨⟨-, hd⟩, ha⟩, -⟩ := h
  exact hP f hd ha

theorem eq_zero_of_zeroField {w : Nat} {x : BitVec w} (h : (x.toNat == 0) = true) : x = 0 :=
  BitVec.eq_of_toNat_eq ((eq_of_beq h).trans BitVec.toNat_zero.symm)

theorem lt_of_under {k n : Nat} (h : under k n = true) : n < k := of_decide_eq_true h

/-- R88: a predicate source is pt or one of P0 to P11. -/
theorem eq_or_lt_of_predSrc {c : BitVec 8} (h : predSrc c.toNat = true) : c = 15 ∨ c.toNat < 12 := by
  simp only [predSrc, Bool.or_eq_true, decide_eq_true_eq, beq_iff_eq] at h
  exact h.symm.imp_left fun h => BitVec.eq_of_toNat_eq h

/-! ### A word built bit by bit -/

/-- What a word holds once the bits that pass a test have been set, from bit 0 on. -/
theorem getLsbD_foldl_twoPow (p : Nat → Bool) (n j : Nat) (hj : j < 32) :
    ((List.range n).foldl (fun (r : Word) i => if p i then r ||| BitVec.twoPow 32 i else r) 0).getLsbD j = (decide (j < n) && p j) := by
  induction n with
  | zero => simp
  | succ n ih =>
    rw [List.range_succ, List.foldl_append, List.foldl_cons, List.foldl_nil]
    generalize (List.range n).foldl (fun (r : Word) i => if p i then r ||| BitVec.twoPow 32 i else r) 0 = r at ih ⊢
    have hbit : (BitVec.twoPow 32 n).getLsbD j = decide (n = j) := by
      rw [BitVec.getLsbD_twoPow, Bool.and_eq_right_iff_imp]
      simpa using fun h : n = j => h ▸ hj
    have hstep : (if p n then r ||| BitVec.twoPow 32 n else r).getLsbD j = (decide (j < n) && p j || p n && decide (n = j)) := by
      split
      next hp => rw [BitVec.getLsbD_or, ih, hbit, hp, Bool.true_and]
      next hp => rw [ih, eq_false_of_ne_true hp, Bool.false_and, Bool.or_false]
    rw [hstep]
    by_cases hn : n = j
    · subst hn; simp
    · simp [hn, show j < n + 1 ↔ j < n by omega]

end Sys2Proof.Machine
end

section
/-! PROOF. Logic, shifts, the funnel shift, bit fields and byte permutation (R94 to R97). -/

namespace Sys2Proof.Machine

open Sys2Proof

/-- R94: the sign fills an arithmetic shift. -/
theorem shiftArith_eq (p q : Word) :
    shiftArith p q = if 32 ≤ q.toNat then (if p.msb then BitVec.allOnes 32 else 0) else p.sshiftRight q.toNat := by
  rw [shiftArith, BitVec.msb_eq_getLsbD_last]

/-- R95. -/
theorem funnel_eq (a b c : Word) : funnel a b c = BitVec.ofNat 32 ((c.toNat * 2 ^ 32 + a.toNat) / 2 ^ min b.toNat 64) := by
  rw [funnel, ← BitVec.setWidth_eq_extractLsb' (by decide)]
  apply BitVec.eq_of_toNat_eq
  rw [BitVec.toNat_setWidth, BitVec.toNat_ushiftRight, BitVec.toNat_append, BitVec.toNat_ofNat, Nat.shiftRight_eq_div_pow,
    ← Nat.shiftLeft_add_eq_or_of_lt a.isLt, Nat.shiftLeft_eq]

/-- R96: a bit of the field of a that BFX takes; past the end of a it is the sign, or 0. -/
def fieldBit (signed : Bool) (a b : Word) (i : Nat) : Bool :=
  if fieldPos b + i ≤ 31 then a.getLsbD (fieldPos b + i) else signed && a.getLsbD 31

/-- R96: a bit of BFX, within the field and past its end. -/
theorem getLsbD_bitExtract (signed : Bool) (a b : Word) (j : Nat) (hj : j < 32) :
    (bitExtract signed a b).getLsbD j =
      if j < fieldWidth b then fieldBit signed a b j else signed && decide (0 < fieldWidth b) && fieldBit signed a b (fieldWidth b - 1) := by
  rw [bitExtract, getLsbD_foldl_twoPow _ _ _ hj, decide_eq_true hj, Bool.true_and]
  rfl

/-- R96: a bit of BFI, within the field and outside it. -/
theorem getLsbD_bitInsert (a b c : Word) (j : Nat) (hj : j < 32) :
    (bitInsert a b c).getLsbD j =
      if fieldPos b ≤ j ∧ j < fieldPos b + fieldWidth b then a.getLsbD (j - fieldPos b) else c.getLsbD j := by
  have hin : (fieldPos b ≤ j ∧ j - fieldPos b < fieldWidth b) ↔ (fieldPos b ≤ j ∧ j < fieldPos b + fieldWidth b) :=
    and_congr_right fun h => Nat.sub_lt_iff_lt_add' h
  rw [bitInsert, getLsbD_foldl_twoPow _ _ _ hj, decide_eq_true hj, Bool.true_and]
  simp only [hin]

/-- R97: each byte of PRMT is the one that its four bits of c select. -/
theorem extractLsb'_permute (a b c : Word) (j : Nat) (hj : j < 4) :
    (permute a b c).extractLsb' (8 * j) 8 = permuteByte (b ++ a) (c.extractLsb' (4 * j) 4) := by
  rw [permute]
  obtain rfl | rfl | rfl | rfl : j = 0 ∨ j = 1 ∨ j = 2 ∨ j = 3 := by omega
  · exact BitVec.extractLsb'_append_eq_right
  · rw [BitVec.extractLsb'_append_eq_of_le (by decide)]
    exact BitVec.extractLsb'_append_eq_right
  · rw [BitVec.extractLsb'_append_eq_of_le (by decide), BitVec.extractLsb'_append_eq_of_le (by decide)]
    exact BitVec.extractLsb'_append_eq_right
  · rw [BitVec.extractLsb'_append_eq_of_le (by decide), BitVec.extractLsb'_append_eq_of_le (by decide)]
    exact BitVec.extractLsb'_append_eq_left

theorem permuteByte_eq (ba : DWord) (sel : BitVec 4) :
    permuteByte ba sel =
      let source := ba.extractLsb' (8 * (sel.toNat % 8)) 8
      if sel.getLsbD 3 then (if source.msb then 255#8 else 0#8) else source := by
  have hs : (sel.extractLsb' 0 3).toNat = sel.toNat % 8 := by simp
  simp only [permuteByte, hs, BitVec.msb_eq_getLsbD_last]
  rfl

/-- Settles O3: the logic, the shifts and the funnel shift as functions of words, fields and bytes bit by bit. -/
theorem logicShiftsAndFields : Obligations.LogicShiftsAndFields := by
  unfold Obligations.LogicShiftsAndFields
  refine ⟨fun s y x b a d => ?_, fun s m b a d => ?_, ?_, ?_, ?_, ?_⟩
  · refine ⟨op2_of_exec rfl, op2_of_exec rfl, op2_of_exec rfl, op2_of_exec rfl,
      op2_of_exec rfl, op2_of_exec rfl shiftArith_eq,
      both_of_op opAnd fun _ _ _ hx => op2_of_exec hx,
      both_of_op opOr fun _ _ _ hx => op2_of_exec hx,
      both_of_op opXor fun _ _ _ hx => op2_of_exec hx,
      both_of_op opAndn fun _ _ _ hx => op2_of_exec hx,
      both_of_op opNot fun _ _ _ hx => op1_of_exec hx,
      both_of_op opShl fun _ _ _ hx => op2_of_exec hx,
      both_of_op opShr fun _ _ _ hx => op2_of_exec hx,
      both_of_op opSar fun _ _ _ hx => op2_of_exec hx shiftArith_eq⟩
  · refine ⟨both_of_op opShf fun _ _ _ hx => op3_of_exec hx funnel_eq,
      both_of_op opBfx fun _ _ _ hx => (op2_of_exec hx).gives fun _ => ⟨fun j hj => ?_, fun j hj hj' => ?_⟩,
      both_of_op opBfi fun _ _ _ hx => (op3_of_exec hx).gives fun _ => getLsbD_bitInsert _ _ _,
      both_of_op opPrmt fun _ _ _ hx => (op3_of_exec hx).gives fun _ j hj =>
        (extractLsb'_permute _ _ _ j hj).trans (permuteByte_eq _ _)⟩
    · exact (getLsbD_bitExtract _ _ _ j (Nat.lt_of_lt_of_le hj (Nat.min_le_left _ _))).trans (if_pos hj)
    · exact (getLsbD_bitExtract _ _ _ j hj').trans (if_neg (Nat.not_lt.mpr hj))
  · exact accepts_of_meets .dabc fun _ _ => trivial
  · exact accepts_of_meets X3Rule.dab.int fun _ h => lt_of_under h.ty
  · exact accepts_of_meets .dabc fun _ h => eq_zero_of_zeroField h.ty
  · exact accepts_of_meets .dabc fun _ _ => trivial

end Sys2Proof.Machine
end

section
/-! PROOF. Comparisons, selection, moves and the immediate forms (R65, R78, R89, R98, R99). -/

namespace Sys2Proof.Machine

open Sys2Proof

/-- R98: the three-way result, over the integers that the type reads. -/
theorem threeWay_eq (ty : BitVec 4) (p q : Word) :
    threeWay p q (ty == 1) = if typed ty p < typed ty q then 0xFFFFFFFF#32 else if p = q then 0 else 1 := by
  by_cases h : ty = 1#4
  · simp [threeWay, typed, h, BitVec.ult]
  · simp [threeWay, typed, h, BitVec.slt]

theorem threeWay_signed (p q : Word) :
    threeWay p q false = if p.toInt < q.toInt then 0xFFFFFFFF#32 else if p = q then 0 else 1 := threeWay_eq 0 p q

/-- R89: a comparison holds where its condition does, code by code. -/
theorem compareWords_iff {w : Nat} (code : Nat) (hc : code < 8) (unsigned : Bool) (a b : BitVec w) :
    compareWords code unsigned a b = true ↔ compares code unsigned a b := by
  unfold compareWords compares
  have hlt : (if unsigned then a.ult b else a.slt b) =
      decide ((if unsigned then (a.toNat : Int) else a.toInt) < (if unsigned then (b.toNat : Int) else b.toInt)) := by
    cases unsigned <;> simp [BitVec.ult, BitVec.slt]
  have heq : a = b ↔ (if unsigned then (a.toNat : Int) else a.toInt) = (if unsigned then (b.toNat : Int) else b.toInt) := by
    cases unsigned
    · exact BitVec.toInt_inj.symm
    · exact BitVec.toNat_inj.symm.trans Int.natCast_inj.symm
  rw [hlt]
  generalize (if unsigned then (a.toNat : Int) else a.toInt) = x at *
  generalize (if unsigned then (b.toNat : Int) else b.toInt) = y at *
  have hle : (x < y ∨ x = y) ↔ x ≤ y := by omega
  have hgt : (y ≤ x ∧ ¬x = y) ↔ y < x := by omega
  match code, hc with
  | 0, _ | 1, _ | 2, _ | 5, _ => simp [condition, heq]
  | 3, _ => simp [condition, heq, hle]
  | 4, _ => simp [condition, heq, hgt]
  | 6, _ | 7, _ => simp [condition]

theorem condOf_lt (d : BitVec 8) : condOf d < 8 := (d.extractLsb' 4 3).isLt

theorem imin_eq (p q : Word) : (if p.sle q then p else q) = if q.toInt < p.toInt then q else p := by
  by_cases h : q.toInt < p.toInt
  · rw [if_pos h, if_neg (mt BitVec.sle_iff_toInt_le.mp (Int.not_le.mpr h))]
  · rw [if_neg h, if_pos (BitVec.sle_iff_toInt_le.mpr (Int.not_lt.mp h))]

theorem imax_eq (p q : Word) : (if q.sle p then p else q) = if p.toInt < q.toInt then q else p := by
  by_cases h : p.toInt < q.toInt
  · rw [if_pos h, if_neg (mt BitVec.sle_iff_toInt_le.mp (Int.not_le.mpr h))]
  · rw [if_neg h, if_pos (BitVec.sle_iff_toInt_le.mpr (Int.not_lt.mp h))]

/-- R63: the 16-bit move. -/
theorem mov16_writes (s : State) (y : BitVec 5) (x : BitVec 6) :
    Writes (.mov16 y x) s (shapeX3 2 (s.form16 y x) [r1 (s.form16 y x).d, r1 (s.form16 y x).b]) x.toNat fun t => s.reg t y.toNat := by
  have hd : (s.form16 y x).d.toNat = x.toNat := BitVec.toNat_setWidth_of_le (by decide)
  have hb : (s.form16 y x).b.toNat = y.toNat :=
    (BitVec.toNat_setWidth_of_le (by decide)).trans (BitVec.toNat_setWidth_of_le (by decide))
  have hx : exec (.mov16 y x) s = .next (opMov 2 (s.form16 y x) s) := rfl
  rw [← hd]
  exact (writes_of_issue hx).of_eq fun t => by rw [hb]

/-- Settles O4: the immediate forms go through one operation on a register and a word; a comparison goes by its condition code by code,
over the integers that its type reads. -/
theorem immediatesAndComparisons : Obligations.ImmediatesAndComparisons := by
  unfold Obligations.ImmediatesAndComparisons
  refine ⟨fun s k a d => ⟨BitVec.toInt_signExtend_of_le (by decide), ?_⟩, fun s y x m k b a d k14 => ?_, ?_, ?_, ?_, ?_, ?_, ?_, ?_, rfl⟩
  · exact ⟨both_of_op opIaddImm fun _ _ _ hx => opI_of_exec hx,
      both_of_op opIsubImm fun _ _ _ hx => opI_of_exec hx,
      both_of_op opImulImm fun _ _ _ hx => opI_of_exec hx,
      both_of_op opAndImm fun _ _ _ hx => opI_of_exec hx,
      both_of_op opOrImm fun _ _ _ hx => opI_of_exec hx,
      both_of_op opXorImm fun _ _ _ hx => opI_of_exec hx,
      both_of_op opShlImm fun _ _ _ hx => opI_of_exec hx,
      both_of_op opShrImm fun _ _ _ hx => opI_of_exec hx,
      both_of_op opSarImm fun _ _ _ hx => opI_of_exec hx shiftArith_eq,
      both_of_op opIminImm fun _ _ _ hx => opI_of_exec hx imin_eq,
      both_of_op opImaxImm fun _ _ _ hx => opI_of_exec hx imax_eq,
      both_of_op opIcmpImm fun _ _ _ hx => opI_of_exec hx threeWay_signed⟩
  · refine ⟨both_of_op opIcmp fun _ _ f hx => op2_of_exec hx (threeWay_eq f.ty),
      both_of_op opIcmpp fun _ _ _ hx => tests_of_issue hx fun _ => compareWords_iff _ (condOf_lt _) _ _ _,
      both_of_op opIcmppImm fun _ _ _ hx => tests_of_issue hx fun _ => ?_,
      both_of_op opSel fun _ _ _ hx => (writes_of_issue hx).of_eq fun _ => ?_,
      mov16_writes s y x,
      both_of_op opMov fun _ _ _ hx => writes_of_issue hx,
      both_of_op opMovi fun _ _ _ hx => writes_of_issue hx⟩
    · rw [BitVec.msb_eq_getLsbD_last]
      exact compareWords_iff _ (condOf_lt _) _ _ _
    · simp only [bne_iff_ne, ne_eq, ite_not]
  · exact accepts_of_meets X3Rule.dab.int fun _ h => lt_of_under h.ty
  · refine accepts_of_meets { X3Rule.dab.int with d := fun n => predDst (n % 16) && decide (n < 128) } fun f h => ?_
    obtain ⟨hp, hlt⟩ := Bool.and_eq_true_iff.mp h.d
    have hlt := of_decide_eq_true hlt
    exact ⟨lt_of_under h.ty, of_decide_eq_true hp, BitVec.msb_eq_false_iff_two_mul_lt.mpr (by omega)⟩
  · exact acceptsI_of_meets anyField anyField anyField fun _ _ _ => trivial
  · exact acceptsI_of_meets (fun n => predDst (n % 16)) anyField anyField fun _ hd _ => of_decide_eq_true hd
  · exact accepts_of_meets { X3Rule.dab with c := predSrc, scope := under 2 } fun _ h => eq_or_lt_of_predSrc h.c
  · refine fun f => ⟨rfl, fun h => ?_⟩
    have hok : (f.meets .dab && f.a == f.d) = true := h
    exact eq_of_beq (Bool.and_eq_true_iff.mp hok).2
  · exact acceptsI_of_meets anyField zeroField anyField fun _ _ ha => eq_zero_of_zeroField ha

end Sys2Proof.Machine
end

section
/-! PROOF. Sums and differences with a carry (R92), bit counts and reversal (R93). -/

namespace Sys2Proof.Machine

open Sys2Proof

/-! ### Carries -/

/-- R92: the sum of two words and a carry, over the integers, gives the word and the carry. -/
theorem addCarry_eq (a b : Word) (c : Bool) :
    addCarry a b c = (BitVec.ofInt 32 (a.toNat + b.toNat + if c then 1 else 0),
      decide ((a.toNat + b.toNat + if c then 1 else 0 : Int) < 0 ∨ 2 ^ 32 ≤ (a.toNat + b.toNat + if c then 1 else 0 : Int))) := by
  have hx : (a.toNat + b.toNat + if c then 1 else 0 : Int) = ((a.toNat + b.toNat + if c then 1 else 0 : Nat) : Int) := by
    cases c <;> simp
  rw [hx, addCarry, BitVec.ofInt_natCast]
  simp only [Prod.mk.injEq, true_and, decide_eq_decide]
  omega

/-- R92: the difference likewise, with the borrow. -/
theorem subBorrow_eq (a b : Word) (c : Bool) :
    subBorrow a b c = (BitVec.ofInt 32 (a.toNat - b.toNat - if c then 1 else 0),
      decide ((a.toNat - b.toNat - if c then 1 else 0 : Int) < 0 ∨ 2 ^ 32 ≤ (a.toNat - b.toNat - if c then 1 else 0 : Int))) := by
  refine Prod.ext (BitVec.eq_of_toNat_eq ?_) (decide_eq_decide.mpr ?_)
  · cases c <;> simp [subBorrow, BitVec.toNat_sub, BitVec.toNat_ofInt] <;> omega
  · cases c <;> simp <;> omega

/-- R92: what a sum or difference with a carry does: `x` is the exact result, with the carry in. -/
theorem carry_of_exec {i : Instr} {s : State} {len : Nat} {f : X3} {g : Word → Word → Bool → Word × Bool} (x : Int → Int → Int → Int)
    (hx : exec i s = .next (opCarry len f g s)) (hc : f.c = 15#8 ∨ f.c.toNat < 12)
    (hg : ∀ a b c, g a b c = (BitVec.ofInt 32 (x a.toNat b.toNat (if c then 1 else 0)),
      decide (x a.toNat b.toNat (if c then 1 else 0) < 0 ∨ 2 ^ 32 ≤ x a.toNat b.toNat (if c then 1 else 0))))
    (e : Env) (h : Issues s (shapeX3 len f [r1 f.d, r1 f.a, r1 f.b]) e) :
    let y : Member → Int := fun m => x (s.reg m f.a.toNat).toNat (s.reg m f.b.toNat).toNat (if f.c ≠ 15#8 ∧ s.pred m f.c.toNat then 1 else 0)
    ∃ t, exec i s = .next t ∧ (∀ m ∈ e.exec, t.reg m f.d.toNat = BitVec.ofInt 32 (y m)) ∧
      (f.c ≠ 15#8 → ∀ m ∈ e.exec, t.pred m f.c.toNat = decide (y m < 0 ∨ 2 ^ 32 ≤ y m)) ∧
      KeepsRegs s t e.exec [f.d.toNat] ∧ KeepsPreds s t e.exec (if f.c = 15#8 then [] else [f.c.toNat]) ∧ Kept s t := by
  intro y
  have hin : ∀ m, g (s.reg m f.a.toNat) (s.reg m f.b.toNat) (s.carryIn m f.c) = (BitVec.ofInt 32 (y m), decide (y m < 0 ∨ 2 ^ 32 ≤ y m)) := by
    intro m
    have hcin : (if s.carryIn m f.c then (1 : Int) else 0) = if f.c ≠ 15#8 ∧ s.pred m f.c.toNat then 1 else 0 := by
      by_cases h15 : f.c = 15#8 <;> simp [State.carryIn, h15]
    rw [hg, hcin]
  unfold opCarry at hx
  by_cases h15 : f.c = 15#8
  · simp only [if_pos h15] at hx
    obtain ⟨t, ht, hreg, hregs, hpreds, hk⟩ := writes_of_issue hx e h
    exact ⟨t, ht, fun m hm => (hreg m hm).trans (congrArg Prod.fst (hin m)), fun hn => absurd h15 hn, hregs,
      fun m r _ => hpreds m r (.inl List.not_mem_nil), hk⟩
  · simp only [if_neg h15] at hx ⊢
    obtain ⟨t, ht, hreg, hpred, hregs, hpreds, hk⟩ := writesBoth_of_issue (hc.resolve_left h15) hx e h
    exact ⟨t, ht, fun m hm => (hreg m hm).trans (congrArg Prod.fst (hin m)), fun _ m hm => (hpred m hm).trans (congrArg Prod.snd (hin m)),
      hregs, hpreds, hk⟩

/-! ### Bits -/

theorem length_filter_eq_sum {α : Type} (p : α → Bool) (l : List α) : (l.filter p).length = (l.map fun x => (p x).toNat).sum := by
  induction l with
  | nil => rfl
  | cons x l ih => cases h : p x <;> simp [h, ih]; omega

/-- R93: a word's count of 1 bits. -/
theorem toNat_bitCount (a : Word) : (BitVec.ofNat 32 (bitCount a)).toNat = ((List.range 32).map fun j => (a.getLsbD j).toNat).sum := by
  have hle : bitCount a ≤ 32 := Nat.le_trans (List.length_filter_le _ _) (Nat.le_of_eq List.length_range)
  rw [BitVec.toNat_ofNat, Nat.mod_eq_of_lt (by omega), bitCount, length_filter_eq_sum]

/-- R93: the first of 32 bits, in some order, that is 1: 32 when none is. -/
theorem toNat_firstBit (p : Nat → Bool) (v : Word) (hv : v = BitVec.ofNat 32 (((List.range 32).find? p).getD 32)) :
    v.toNat ≤ 32 ∧ (∀ j, j < v.toNat → p j = false) ∧ (v.toNat < 32 → p v.toNat = true) := by
  subst hv
  cases h : (List.range 32).find? p with
  | none =>
    have hnone := List.find?_range_eq_none.mp h
    simpa using hnone
  | some k =>
    obtain ⟨hk, hlt, hbefore⟩ := List.find?_range_eq_some.mp h
    rw [List.mem_range] at hlt
    have hval : (BitVec.ofNat 32 ((some k).getD 32)).toNat = k := Nat.mod_eq_of_lt (Nat.lt_trans hlt (by decide))
    rw [hval]
    exact ⟨Nat.le_of_lt hlt, fun j hj => by simpa using hbefore j hj, fun _ => hk⟩

theorem getLsbD_bitReverse (a : Word) (j : Nat) (hj : j < 32) : (bitReverse a).getLsbD j = a.getLsbD (31 - j) := by
  rw [bitReverse, getLsbD_foldl_twoPow (fun i => a.getLsbD (31 - i)) _ _ hj, decide_eq_true hj, Bool.true_and]

/-- Settles O2: a sum or difference with a carry is exact over the integers, and its word and its carry are read off from it; the counts
and the reversal go bit by bit. -/
theorem carriesAndCounts : Obligations.CarriesAndCounts := by
  unfold Obligations.CarriesAndCounts
  refine ⟨fun s b a d => ?_, fun s a d => ?_, ?_, ?_, ?_, ?_, ?_, ?_⟩
  · exact ⟨both_of_op opIaddc fun _ _ _ hx hc => carry_of_exec (fun p q c => p + q + c) hx hc addCarry_eq,
      both_of_op opIsubb fun _ _ _ hx hc => carry_of_exec (fun p q c => p - q - c) hx hc subBorrow_eq⟩
  · exact ⟨both_of_op opPopc fun _ _ _ hx => (op1_of_exec hx).gives fun _ => toNat_bitCount _,
      both_of_op opClz fun _ _ _ hx => (op1_of_exec hx).gives fun _ => toNat_firstBit _ _ rfl,
      both_of_op opCtz fun _ _ _ hx => (op1_of_exec hx).gives fun _ => toNat_firstBit _ _ rfl,
      both_of_op opBrev fun _ _ _ hx => (op1_of_exec hx).gives fun _ => getLsbD_bitReverse _⟩
  · exact accepts_of_meets { X3Rule.dab.int with c := predSrc } fun _ h =>
      ⟨eq_zero_of_zeroField h.ovf, lt_of_under h.ty, eq_or_lt_of_predSrc h.c⟩
  · exact accepts_of_meets { X3Rule.dab.int with c := predSrc } fun _ h =>
      ⟨eq_zero_of_zeroField h.ovf, lt_of_under h.ty, eq_or_lt_of_predSrc h.c⟩
  all_goals exact accepts_of_meets .da fun _ h => ⟨eq_zero_of_zeroField h.b, eq_zero_of_zeroField h.c, eq_zero_of_zeroField h.ty⟩

end Sys2Proof.Machine
end

section
/-! PROOF. EXIT, YIELD, WAITF, SLEEP and NOP (R109, R110, R112). -/

namespace Sys2Proof.Machine

open Sys2Proof

/-- R109, R110: an instruction that ends its run changes each executing thread by itself. -/
theorem does_of_ending {i : Instr} {s : State} {sh : Shape} {g : Nat → Thread → Thread} (hx : exec i s = .next (opEnding sh g s)) :
    Does i s { sh with place := .ending } (fun _ => True) fun e => e.exec.foldl (fun t m => t.modThread m (g s.now)) s :=
  does_of_issue hx fun _ _ _ => rfl

/-- Settles O13: each of them is done once it has changed its executing threads, or nothing. -/
theorem exitAndWaits : Obligations.ExitAndWaits := by
  unfold Obligations.ExitAndWaits
  intro s k n14 f9
  exact ⟨both_of_op opExit fun _ _ _ hx => does_of_ending hx,
    both_of_op opYield fun _ _ _ hx => does_of_ending hx,
    both_of_op opWaitf fun _ _ _ hx => does_of_ending hx,
    both_of_op opSleep fun _ _ _ hx => does_of_ending hx,
    does_of_issue rfl fun _ _ _ => rfl, does_of_issue rfl fun _ _ _ => rfl⟩

end Sys2Proof.Machine
end

section
/-! PROOF. An instruction that ends its run and sends threads to targets (R106): what the note of a taken branch changes where none is
drained to memory (R341, R343), and where the threads of the group then stand. -/

namespace Sys2Proof.Machine

open Sys2Proof

/-- States that differ at most in their event recorders. -/
def SameButRecorders (s t : State) : Prop := t = { s with recorders := t.recorders }

theorem SameButRecorders.refl (s : State) : SameButRecorders s s := rfl

theorem SameButRecorders.trans {s t u : State} (a : SameButRecorders s t) (b : SameButRecorders t u) : SameButRecorders s u := by
  unfold SameButRecorders at *
  rw [b, a]

theorem SameButRecorders.of_foldl {α : Type} {s : State} (f : State → α → State)
    (h : ∀ t x, SameButRecorders s t → SameButRecorders t (f t x)) (t : State) (ht : SameButRecorders s t) (l : List α) :
    SameButRecorders s (l.foldl f t) := by
  induction l generalizing t with
  | nil => exact ht
  | cons x l ih => exact ih _ (ht.trans (h t x ht))

theorem SameButRecorders.putRecorder (s : State) (c : Nat) (r : Recorder) : SameButRecorders s (s.putRecorder c r) := rfl

/-- R343: with no drain a record goes to its ring alone. -/
theorem SameButRecorders.storeRecord {s : State} (h : s.sys.rdbase = 0) (core : Nat) (w : BitVec 128) :
    SameButRecorders s (s.storeRecord core w) := by
  have hoff : s.storeRecord core w = s.putRecorder core ((s.recorder core).push w) := if_pos h
  rw [hoff]
  exact .putRecorder s core _

theorem SameButRecorders.rdbase {s t : State} (h : SameButRecorders s t) : t.sys.rdbase = s.sys.rdbase := by rw [h]

theorem SameButRecorders.recordTimebases {s : State} (h : s.sys.rdbase = 0) (core at_ : Nat) :
    SameButRecorders s (s.recordTimebases core at_) :=
  .of_foldl _ (fun _ _ ht => (SameButRecorders.storeRecord (ht.rdbase.trans h) _ _).trans (.putRecorder _ _ _)) s (.refl s) _

theorem SameButRecorders.recordIn {s : State} (h : s.sys.rdbase = 0) (core place slot ctx ty payload at_ : Nat) :
    SameButRecorders s (s.recordIn core place slot ctx ty payload at_) := by
  have ht := SameButRecorders.recordTimebases h core at_
  unfold State.recordIn
  simp only
  split
  · exact .refl s
  · split
    · exact .putRecorder s _ _
    · exact (ht.trans (.storeRecord (ht.rdbase.trans h) _ _)).trans (.putRecorder _ _ _)

/-- R341: what the note of a taken branch changes. -/
theorem SameButRecorders.recordBranch {s : State} {e : Env} (h : s.unrecorded e) (next : List (Member × BitVec 64)) :
    SameButRecorders s (s.recordBranch e next) := by
  unfold State.recordBranch
  split
  · exact .refl s
  · rcases h with h | h
    · split
      · unfold State.recordWarp
        split
        · exact .recordIn h _ _ _ _ _ _ _
        · exact .refl s
      · exact .refl s
    · rw [h, if_neg Bool.false_ne_true]
      exact .refl s

theorem Moves.refl (s : State) : Moves s s := ⟨rfl, fun _ => rfl, fun _ => rfl, fun _ => rfl⟩

theorem Moves.trans {s t u : State} (a : Moves s t) (b : Moves t u) : Moves s u :=
  ⟨b.rest.trans a.rest, fun x => (b.warps x).trans (a.warps x), fun x => (b.threads x).trans (a.threads x),
    fun x => (b.quarters x).trans (a.quarters x)⟩

theorem Kept.moves {s t : State} (h : Kept s t) : Moves s t := ⟨h.rest, h.warps, h.threads, h.quarters⟩

theorem SameButRecorders.moves {s t : State} (h : SameButRecorders s t) : Moves s t := by
  rw [h]; exact ⟨rfl, fun _ => rfl, fun _ => rfl, fun _ => rfl⟩

theorem SameButRecorders.thread? {s t : State} (h : SameButRecorders s t) (m : Member) : t.thread? m = s.thread? m := by
  rw [h]; rfl

theorem SameButRecorders.now {s t : State} (h : SameButRecorders s t) : t.now = s.now := by rw [h]

theorem State.now_charge (s : State) (core ctx pc : Nat) (l : List Nat) : (s.charge core ctx pc l).now = s.now := by
  unfold State.charge
  cases s.ctx? ctx with
  | none => rfl
  | some c => simp only; split <;> rfl

theorem State.unrecorded_chargeIssue {s : State} {e : Env} (h : s.unrecorded e) (n : Nat) : (s.chargeIssue e n).unrecorded e := by
  unfold State.chargeIssue State.charge
  cases s.ctx? (s.ctxOfGroup e.group) with
  | none => exact h
  | some c => simp only; split <;> exact h

/-- R106: the executing threads that a target is given for, each with it. -/
def Env.goals (e : Env) (target : Member → Option (BitVec 64)) : List (Member × BitVec 64) :=
  e.exec.filterMap fun m => (target m).map fun x => (m, x)

theorem Env.mem_goals {e : Env} {target : Member → Option (BitVec 64)} {p : Member × BitVec 64} :
    p ∈ e.goals target ↔ p.1 ∈ e.exec ∧ target p.1 = some p.2 := by
  obtain ⟨m, x⟩ := p
  simp only [Env.goals, List.mem_filterMap, Option.map_eq_some_iff, Prod.mk.injEq]
  constructor
  · rintro ⟨_, hm, _, ht, rfl, rfl⟩
    exact ⟨hm, ht⟩
  · exact fun ⟨hm, ht⟩ => ⟨m, hm, x, ht, rfl, rfl⟩

theorem targetOf_goals (e : Env) (target : Member → Option (BitVec 64)) (m : Member) :
    targetOf ((e.goals target).map fun (m, x) => (m, x.extractLsb' 0 56)) m =
      if m ∈ e.exec then (target m).map (·.extractLsb' 0 56) else none := by
  unfold Env.goals targetOf
  induction e.exec with
  | nil => rfl
  | cons k l ih =>
    by_cases hkm : m = k
    · subst hkm
      cases hm : target m with
      | none =>
        rw [List.filterMap_cons_none (by rw [hm]; rfl), ih, hm]
        simp
      | some x => simp [hm]
    · have hstep : m ∈ k :: l ↔ m ∈ l := by simp [hkm]
      cases hk : target k with
      | none =>
        rw [List.filterMap_cons_none (by rw [hk]; rfl), ih]
        simp only [hstep]
      | some x =>
        rw [List.filterMap_cons_some (by rw [hk]; rfl), List.map_cons, List.find?_cons_of_neg (by simpa using Ne.symm hkm), ih]
        simp only [hstep]

/-- R106: a meaning that ends its run, with an effect of its own and a target for some threads. -/
theorem goes_of_issue {i : Instr} {s : State} {sh : Shape} {ok : Env → Prop} {own : Env → State}
    {target : Env → Member → Option (BitVec 64)} {body : Env → State → Effect} (hx : exec i s = .next (s.issue sh body))
    (hb : ∀ e, Issues s sh e → ok e → body e s = .go (own e) (e.goals (target e))) (hnow : ∀ e, (own e).now = s.now) :
    Goes i s sh ok own target := by
  intro e h ho hu ht
  have hcharge : Kept (own e) ((own e).chargeIssue e sh.cycles) := Kept.of_charge _ _ _ _ _
  have hnote := SameButRecorders.recordBranch (State.unrecorded_chargeIssue hu sh.cycles) (e.goals (target e))
  have hthreads : ∀ m, (((own e).chargeIssue e sh.cycles).recordBranch e (e.goals (target e))).thread? m = (own e).thread? m := fun m =>
    (hnote.thread? m).trans (State.thread?_charge _ _ _ _ _ m)
  have hregs := (SameRegs.of_threads hthreads).trans (SameRegs.of_retire _ e ((e.goals (target e)).map fun (m, x) => (m, x.extractLsb' 0 56)))
  refine ⟨_, hx.trans (congrArg _ (State.issue_go h (hb e h ho) fun p hp u hp' => ?_)),
    (hcharge.moves.trans hnote.moves).trans (Kept.of_retire _ _ _).moves, fun m r _ => hregs.1 m r, fun m p _ => hregs.2 m p,
    fun hn m hm => ?_⟩
  · obtain ⟨hm, hpx⟩ := Env.mem_goals.mp hp
    exact ht p.1 hm p.2 u hpx hp'
  · rw [Arrives.of_retire _ e _ hn m hm, hthreads, targetOf_goals, hnote.now, State.chargeIssue, State.now_charge, hnow]

end Sys2Proof.Machine
end

section
/-! PROOF. LOOP, LBRK and the check at a run address (R107, R108). -/

namespace Sys2Proof.Machine

open Sys2Proof

/-! ### Counters and the check at a run address -/

theorem Thread.lc_setLc (t : Thread) (n k : Nat) (v : Word) : (t.setLc n v).lc k = if k = n then v else t.lc k :=
  Tab.getD_set 0 t.lcs n k v

theorem sub_one_eq_zero_iff (c : Word) : c - 1 = 0 ↔ c = 1 := by
  constructor <;> intro h <;> bv_omega

section loopEnd
variable {t : Thread} {x : VAddr} {l : Loop} {rest : List Loop} (n : Nat)

theorem Thread.loopEnd_nil (h : t.loops = []) : t.loopEnd x (n + 1) = (t, x) := by
  simp [Thread.loopEnd, h]

/-- R107: the innermost loop ends elsewhere. -/
theorem Thread.loopEnd_other (h : t.loops = l :: rest) (hx : x ≠ l.stop) : t.loopEnd x (n + 1) = (t, x) := by
  simp [Thread.loopEnd, h, hx]

/-- R107: the innermost loop ends here and goes round once more. -/
theorem Thread.loopEnd_again (h : t.loops = l :: rest) (hc : t.lc l.lcn ≠ 1) :
    t.loopEnd l.stop (n + 1) = (t.setLc l.lcn (t.lc l.lcn - 1), l.start) := by
  have hne : t.lc l.lcn - 1 ≠ 0 := fun h0 => hc ((sub_one_eq_zero_iff _).mp h0)
  unfold Thread.loopEnd
  simp only [h, if_true, if_pos hne]

/-- R107: the innermost loop ends here for the last time, and the loop around it is checked. -/
theorem Thread.loopEnd_last (h : t.loops = l :: rest) (hc : t.lc l.lcn = 1) :
    ∃ u : Thread, u.loops = rest ∧ (∀ k, u.lc k = if k = l.lcn then 0 else t.lc k) ∧ t.loopEnd l.stop (n + 1) = u.loopEnd l.stop n := by
  have h0 : t.lc l.lcn - 1 = 0 := (sub_one_eq_zero_iff _).mpr hc
  refine ⟨{ t.setLc l.lcn 0 with loops := rest }, rfl, fun k => t.lc_setLc l.lcn k 0, ?_⟩
  rw [Thread.loopEnd]
  simp only [h, if_true, h0, ne_eq, not_true_eq_false, if_false]

end loopEnd

/-- R27, R107: a thread whose run ends stands where the check of its loops leads. -/
theorem Thread.complete_of_end (t : Thread) (len now : Nat) (target : Option VAddr) (h : hdrLen t.rhdr ≤ t.pos.toNat + 1) :
    let u := t.complete len target now
    let r := t.loopEnd (target.getD (t.pc + BitVec.ofNat 56 len)) 3
    u.pc = r.2 ∧ u.loops = r.1.loops ∧ (∀ n, u.lc n = r.1.lc n) ∧ u.rhdr = 0 := by
  intro u r
  have hu : u = { t.atRun (target.getD (t.pc + BitVec.ofNat 56 len)) now with fell := target.isNone } := if_neg (Nat.not_lt.mpr h)
  rw [hu]
  exact ⟨rfl, rfl, fun _ => rfl, rfl⟩

/-! ### Breaking a loop (R108) -/

theorem Thread.lc_clear (t : Thread) (l : List Loop) (n : Nat) :
    (l.foldl (fun u k => u.setLc k.lcn 0) t).lc n = if ∃ k ∈ l, k.lcn = n then 0 else t.lc n := by
  induction l generalizing t with
  | nil => simp
  | cons k l ih =>
    rw [List.foldl_cons, ih, Thread.lc_setLc]
    by_cases h : ∃ j ∈ l, j.lcn = n
    · obtain ⟨j, hj, rfl⟩ := h
      rw [if_pos ⟨j, hj, rfl⟩, if_pos ⟨j, List.mem_cons_of_mem _ hj, rfl⟩]
    · rw [if_neg h]
      have hhead : (∃ j ∈ k :: l, j.lcn = n) ↔ n = k.lcn := by
        refine ⟨fun ⟨j, hj, hn⟩ => ?_, fun hn => ⟨k, List.mem_cons_self, hn.symm⟩⟩
        obtain rfl | hj := List.mem_cons.mp hj
        · exact hn.symm
        · exact absurd ⟨j, hj, hn⟩ h
      simp only [hhead]

theorem Thread.breakLoop_spec (u : Thread) (inner outer : List Loop) (l : Loop) (h : u.loops = inner ++ l :: outer)
    (hi : ∀ k ∈ inner, k.lcn ≠ l.lcn) :
    (u.breakLoop l.lcn).loops = outer ∧ ∀ k ∈ inner ++ [l], (u.breakLoop l.lcn).lc k.lcn = 0 := by
  have hinner : u.loops.takeWhile (·.lcn != l.lcn) = inner := by
    rw [h, List.takeWhile_append_of_pos (by simpa using hi), List.takeWhile_cons_of_neg (by simp), List.append_nil]
  have hsplit : u.loops = (inner ++ [l]) ++ outer := by rw [h, List.append_assoc]; rfl
  have hlen : inner.length + 1 = (inner ++ [l]).length := by simp
  unfold Thread.breakLoop
  simp only [hinner]
  rw [hsplit, hlen, List.take_left, List.drop_left]
  refine ⟨rfl, fun k hk => ?_⟩
  exact (Thread.lc_clear _ _ _).trans (if_pos ⟨k, hk, rfl⟩)

/-! ### LOOP and LBRK -/

theorem State.now_modThreads (s : State) (l : List Member) (f : Member → Thread → Thread) :
    (l.foldl (fun t m => t.modThread m (f m)) s).now = s.now := by
  induction l generalizing s with
  | nil => rfl
  | cons x l ih => rw [List.foldl_cons, ih]; rfl

theorem Thread.loopActive_iff (t : Thread) (n : Nat) : t.loopActive n = true ↔ ∃ l ∈ t.loops, l.lcn = n := by
  simp [Thread.loopActive]

theorem Thread.loopActive_eq_false_iff (t : Thread) (n : Nat) : t.loopActive n = false ↔ ∀ l ∈ t.loops, l.lcn ≠ n := by
  simp [Thread.loopActive]

section faulting
variable {l : List Member} {p : Member → Bool} {code : BitVec 16} {c : Effect}

/-- R141: an effect that faults for some threads is its own when none is among them. -/
theorem fault_filter_of_none (h : ∀ m ∈ l, p m = false) :
    (if (!(l.filter p).isEmpty) = true then .fault (allCauses (l.filter p) code 0) 0 else c) = c := by
  rw [List.filter_eq_nil_iff.mpr fun m hm => Bool.eq_false_iff.mp (h m hm)]
  rfl

/-- R141: it is the fault of every thread when all are. -/
theorem fault_filter_of_all (hl : l ≠ []) (h : ∀ m ∈ l, p m = true) :
    (if (!(l.filter p).isEmpty) = true then .fault (allCauses (l.filter p) code 0) 0 else c) = .fault (allCauses l code 0) 0 := by
  rw [List.filter_eq_self.mpr h, if_pos (by simpa using hl)]

end faulting

/-- R106: a target that some threads share. -/
theorem Env.goals_of_filter (e : Env) (p : Member → Prop) [DecidablePred p] (x : BitVec 64) :
    (e.exec.filter fun m => decide (p m)).map (fun m => (m, x)) = e.goals fun m => if p m then some x else none := by
  unfold Env.goals
  rw [← List.filterMap_eq_filter, List.map_filterMap]
  refine congrArg (List.filterMap · e.exec) (funext fun m => ?_)
  by_cases h : p m <;> simp [h, Option.guard]

/-- R107: the end of a loop, modulo 2^56. -/
theorem Env.loopStop_eq (e : Env) (imm : BitVec 32) :
    e.after + BitVec.ofNat 56 (2 * (imm.extractLsb' 0 12).toNat) = BitVec.ofNat 56 (e.pc + e.len + 2 * (imm.toNat % 4096)) := by
  rw [Env.after, ← BitVec.ofNat_add, BitVec.extractLsb'_toNat, Nat.shiftRight_zero]

section ends
variable {i : Instr} {s : State} {len : Nat} {e : Env}

/-- R107: LOOP where a thread has fewer than three loops and none of this counter. -/
theorem goes_of_loop {f : XI} (hx : exec i s = .next (opLoop len f s)) :
    Goes i s { shapeXI len f [r1 f.d] with place := .ending }
      (fun e => ∀ m ∈ e.exec, ∃ u, s.thread? m = some u ∧ u.loops.length < 3 ∧ ∀ l ∈ u.loops, l.lcn ≠ f.a.toNat)
      (fun e => (e.exec.filter fun m => s.reg m f.d.toNat != 0).foldl (fun t m => t.modThread m fun u =>
        u.beginLoop f.a.toNat (s.reg m f.d.toNat) e.after (BitVec.ofNat 56 (e.pc + e.len + 2 * (f.imm.toNat % 4096)))) s)
      fun e m => if s.reg m f.d.toNat = 0 then some ((BitVec.ofNat 56 (e.pc + e.len + 2 * (f.imm.toNat % 4096))).zeroExtend 64) else none := by
  refine goes_of_issue hx (fun e _ ho => ?_) fun e => State.now_modThreads s _ _
  refine (fault_filter_of_none fun m hm => ?_).trans ?_
  · obtain ⟨u, hu, hlen, hfree⟩ := ho m hm
    simp only [hu, (u.loopActive_eq_false_iff _).mpr hfree, Bool.false_or, decide_eq_false (Nat.not_le.mpr hlen)]
  · rw [Env.loopStop_eq]
    exact congrArg _ (e.goals_of_filter (fun m => s.reg m f.d.toNat = 0) _)

/-- R107: LOOP where every thread has three loops, or one of this counter. -/
theorem fault_of_loop {f : XI} (hx : exec i s = .next (opLoop len f s)) (h : Issues s { shapeXI len f [r1 f.d] with place := .ending } e)
    (hbad : ∀ m ∈ e.exec, ∃ u, s.thread? m = some u ∧ (3 ≤ u.loops.length ∨ ∃ l ∈ u.loops, l.lcn = f.a.toNat)) :
    exec i s = .next (s.raiseAt e 1 (allCauses e.exec Code.loopState 0) 0) := by
  refine hx.trans (congrArg _ (State.issue_fault h ?_))
  refine fault_filter_of_all h.someone fun m hm => ?_
  obtain ⟨u, hu, hlen | hheld⟩ := hbad m hm
  · simp only [hu, decide_eq_true hlen, Bool.or_true]
  · simp only [hu, (u.loopActive_iff _).mpr hheld, Bool.true_or]

/-- R108: LBRK where every thread has a loop of this counter. -/
theorem goes_of_lbrk {f : X3} (hx : exec i s = .next (opLbrk len f s)) :
    Goes i s { shapeX3 len f [] with place := .ending }
      (fun e => ∀ m ∈ e.exec, ∃ u, s.thread? m = some u ∧ ∃ l ∈ u.loops, l.lcn = f.d.toNat)
      (fun e => e.exec.foldl (fun t m => t.modThread m fun u => u.breakLoop f.d.toNat) s)
      fun _ m => (s.thread? m).bind fun u => (u.loops.find? (·.lcn == f.d.toNat)).map (·.stop.zeroExtend 64) := by
  refine goes_of_issue hx (fun e _ ho => ?_) fun e => State.now_modThreads s _ _
  refine (fault_filter_of_none fun m hm => ?_).trans ?_
  · obtain ⟨u, hu, hheld⟩ := ho m hm
    simp only [hu, (u.loopActive_iff _).mpr hheld, Bool.not_true]
  · refine congrArg _ (congrArg (List.filterMap · e.exec) (funext fun m => ?_))
    rw [Option.map_bind, Option.map_bind]
    simp only [Option.map_map, Function.comp_def]

/-- R108: LBRK where no thread has a loop of this counter. -/
theorem fault_of_lbrk {f : X3} (hx : exec i s = .next (opLbrk len f s)) (h : Issues s { shapeX3 len f [] with place := .ending } e)
    (hbad : ∀ m ∈ e.exec, ∃ u, s.thread? m = some u ∧ ∀ l ∈ u.loops, l.lcn ≠ f.d.toNat) :
    exec i s = .next (s.raiseAt e 1 (allCauses e.exec Code.loopState 0) 0) := by
  refine hx.trans (congrArg _ (State.issue_fault h ?_))
  refine fault_filter_of_all h.someone fun m hm => ?_
  obtain ⟨u, hu, hfree⟩ := hbad m hm
  simp only [hu, (u.loopActive_eq_false_iff _).mpr hfree, Bool.not_false]

end ends

/-- Settles O11: the check of R107 loop by loop, and LOOP and LBRK where every thread may go on and where every thread is at fault. -/
theorem loops : Obligations.Loops := by
  unfold Obligations.Loops
  refine ⟨fun t len now target l rest hend hl hx => ?_, fun s off lcn cnt d => ?_⟩
  · obtain ⟨hpc, hloops, hlc, hrhdr⟩ := t.complete_of_end len now target hend
    rw [hx] at hpc hloops hlc
    refine ⟨fun hc => ?_, fun hc hr => ?_, fun k ks hc hr hk => ?_, fun k ks hc hr hk hne hkc => ?_⟩
    · rw [Thread.loopEnd_again 2 hl hc] at hpc hloops hlc
      exact ⟨hpc, hloops, (hlc _).trans (by rw [Thread.lc_setLc, if_pos rfl]), hrhdr⟩
    · obtain ⟨u, hul, hulc, hu⟩ := Thread.loopEnd_last 2 hl hc
      rw [hu, Thread.loopEnd_nil 1 (hul.trans hr)] at hpc hloops hlc
      exact ⟨hpc, hloops.trans (hul.trans hr), (hlc _).trans ((hulc _).trans (if_pos rfl))⟩
    · obtain ⟨u, hul, -, hu⟩ := Thread.loopEnd_last 2 hl hc
      rw [hu, Thread.loopEnd_other 1 (hul.trans hr) hk.symm] at hpc hloops
      exact ⟨hpc, hloops.trans hul⟩
    · obtain ⟨u, hul, hulc, hu⟩ := Thread.loopEnd_last 2 hl hc
      have huk : u.lc k.lcn = t.lc k.lcn := (hulc _).trans (if_neg hne)
      rw [hu, ← hk, Thread.loopEnd_again 1 (hul.trans hr) (huk ▸ hkc), huk] at hpc hloops hlc
      refine ⟨hpc, hloops.trans hul, (hlc _).trans ?_, (hlc _).trans ?_⟩
      · rw [Thread.lc_setLc, if_pos rfl]
      · rw [Thread.lc_setLc, if_neg hne.symm, hulc, if_pos rfl]
  · exact ⟨both_of_op opLoop fun _ _ _ hx => goes_of_loop hx,
      both_of_op opLoop fun _ _ _ hx e h hbad => fault_of_loop hx h hbad,
      both_of_op opLbrk fun _ _ _ hx => goes_of_lbrk hx,
      both_of_op opLbrk fun _ _ _ hx e h hbad => fault_of_lbrk hx h hbad,
      fun u inner outer l h hi => u.breakLoop_spec inner outer l h hi⟩

end Sys2Proof.Machine
end

section
/-! PROOF. FP32 selection and comparison, rounding to an integer, classes, scaling, exponent, mantissa and sign (R116 to R121). -/

namespace Sys2Proof.Machine

open Sys2Proof

/-! ### Comparisons -/

/-- R117: where an operand is NaN, .nan holds, .num does not, and a relation holds under .u. -/
theorem floatCondition_none_iff (code : Nat) (u : Bool) :
    floatCondition code u none = true ↔ code ≠ 6 ∧ (code = 7 ∨ u = true) := by
  by_cases h6 : code = 6
  · simp [floatCondition, h6]
  · by_cases h7 : code = 7
    · simp [floatCondition, h7]
    · simp [floatCondition, h6, h7]

/-- R89, R117: where no operand is NaN, .num holds, .nan does not, and a relation goes by the order. -/
theorem floatCondition_some_iff (code : Nat) (hc : code < 8) (u : Bool) (o : Int) :
    floatCondition code u (some o) = true ↔
      (code = 0 ∧ o = 0) ∨ (code = 1 ∧ o ≠ 0) ∨ (code = 2 ∧ o < 0) ∨ (code = 3 ∧ o ≤ 0) ∨ (code = 4 ∧ 0 < o) ∨ (code = 5 ∧ 0 ≤ o) ∨
        code = 6 := by
  have hle : (o < 0 ∨ o = 0) ↔ o ≤ 0 := by omega
  have hgt : (0 ≤ o ∧ ¬o = 0) ↔ 0 < o := by omega
  match code, hc with
  | 0, _ | 1, _ | 2, _ | 5, _ | 6, _ | 7, _ => simp [floatCondition, condition]
  | 3, _ => simp [floatCondition, condition, hle]
  | 4, _ => simp [floatCondition, condition, hgt]

/-! ### Signs -/

/-- R121: below the sign, the bits are those of a. -/
theorem getLsbD_copySign (neg : Bool) (a b : Word) (j : Nat) (hj : j < 31) : (copySign neg a b).getLsbD j = a.getLsbD j := by
  rw [copySign, BitVec.getLsbD_append, if_pos hj, BitVec.getLsbD_extractLsb', decide_eq_true hj, Bool.true_and, Nat.zero_add]

/-- R121: the sign is that of b, reversed under .neg. -/
theorem msb_copySign (neg : Bool) (a b : Word) : (copySign neg a b).msb = (b.msb != neg) := by
  rw [copySign, BitVec.msb_append, if_neg (by decide), BitVec.msb_ofBool, BitVec.msb_eq_getLsbD_last]

/-! ### Accepted fields (R70) -/

/-- R70: an entry that takes no FTZ holds 0 there. -/
theorem ftz_eq_zero_of_meets {f : X3} {r : X3Rule} (hr : r.ftz = false) (h : f.meets r = true) : f.ftz = 0 := by
  simp only [X3.meets, hr, Bool.and_eq_true, Bool.false_or] at h
  obtain ⟨⟨-, hftz⟩, -⟩ := h
  exact eq_of_beq hftz

/-- R121: FCPYS takes no type and no modifier but .neg. -/
theorem fcpysW_accepts : Accepts 0x6D .fcpysW fun f => f.ty = 0 ∧ f.rm = 0 ∧ f.ovf = 0 ∧ f.ftz = 0 := by
  refine fun f => ⟨rfl, fun h => ?_⟩
  have hok : f.meets { X3Rule.dab with scope := under 2 } = true := h
  have hf := X3Follows.of_meets hok
  exact ⟨eq_zero_of_zeroField hf.ty, eq_zero_of_zeroField hf.rm, eq_zero_of_zeroField hf.ovf, ftz_eq_zero_of_meets rfl hok⟩

/-- R117: FCMPP takes .u only with the relations of R89. -/
theorem fcmppW_accepts : Accepts 0x67 .fcmppW fun f => f.d.toNat % 16 < 12 ∧ (6 ≤ condOf f.d → f.d.msb = false) := by
  refine accepts_of_meets { X3Rule.dab.flush [2] with d := fun n => predDst (n % 16) && !(decide (6 ≤ n / 16 % 8) && decide (128 ≤ n)) }
    fun f hf => ?_
  obtain ⟨hp, hu⟩ := Bool.and_eq_true_iff.mp hf.d
  have hcond : condOf f.d = f.d.toNat / 16 % 8 := by
    rw [condOf, BitVec.extractLsb'_toNat, Nat.shiftRight_eq_div_pow]
  refine ⟨of_decide_eq_true hp, fun h6 => BitVec.msb_eq_false_iff_two_mul_lt.mpr ?_⟩
  rw [hcond] at h6
  rw [decide_eq_true h6, Bool.true_and, Bool.not_eq_true', decide_eq_false_iff_not] at hu
  omega

/-- Settles O7: each instruction goes through one function of its operand words; a comparison to predicate goes by its condition, where
an operand is NaN and where none is; FCPYS goes bit by bit. -/
theorem floatSelectCompareAndFields : Obligations.FloatSelectCompareAndFields := by
  unfold Obligations.FloatSelectCompareAndFields
  refine ⟨fun s y x m b a d => ?_, fun s m b a d => ?_, ?_, fcmppW_accepts, fcpysW_accepts⟩
  · have hmin : exec (.fmin16 y x) s = .next (opFmin 2 (s.form16 y x) s) := rfl
    have hmax : exec (.fmax16 y x) s = .next (opFmax 2 (s.form16 y x) s) := rfl
    refine ⟨op2_of_exec hmin, op2_of_exec hmax,
      both_of_op opFmin fun _ _ _ hx => op2_of_exec hx,
      both_of_op opFmax fun _ _ _ hx => op2_of_exec hx,
      both_of_op opFcmp fun _ _ _ hx => op2_of_exec hx,
      both_of_op opFcmpp fun _ _ f hx => tests_of_issue hx fun t => ?_⟩
    rw [BitVec.msb_eq_getLsbD_last]
    cases hord : (fp32.read (f.ftz == 1) (s.reg t f.a.toNat).toNat).compare (fp32.read (f.ftz == 1) (s.reg t f.b.toNat).toNat) with
    | none =>
      rw [fCompare, hord]
      exact floatCondition_none_iff _ _
    | some o =>
      rw [fCompare, hord]
      exact floatCondition_some_iff _ (condOf_lt _) _ _
  · exact ⟨both_of_op opFrnd fun _ _ _ hx => op1_of_exec hx,
      both_of_op opFclass fun _ _ _ hx => op1_of_exec hx,
      both_of_op opFscale fun _ _ _ hx => op2_of_exec hx,
      both_of_op opFexpn fun _ _ _ hx => op1_of_exec hx,
      both_of_op opFmant fun _ _ _ hx => op1_of_exec hx,
      both_of_op opFcpys fun _ _ _ hx => (op2_of_exec hx).gives fun _ => ⟨getLsbD_copySign _ _ _, msb_copySign _ _ _⟩⟩
  · exact accepts_of_meets (X3Rule.dab.flush [2]) fun _ _ => trivial

end Sys2Proof.Machine
end

section
/-! PROOF. The executing threads of a tile (R149), what an instruction that writes a value of its whole group gives, and what the forms with a
member mask accept (R147, R150). -/

namespace Sys2Proof.Machine

open Sys2Proof

/-! ### Results that rest on the group -/

/-- R19: only the effect on the group that holds the slot counts. -/
theorem State.issue_congr {s : State} {sh : Shape} {e : Env} {body body' : Env → State → Effect} (h : Issues s sh e)
    (hb : body e s = body' e s) : s.issue sh body = s.issue sh body' := by
  rw [State.issue_checked h, State.issue_checked h, hb]

section group
variable {i : Instr} {s : State} {sh : Shape} {d : Nat}

/-- R87, R149: a meaning that writes one register of each executing thread, from the registers of its group. -/
theorem givesIn_of_issue {v : Env → State → Member → Word} {P : Env → Member → Word → Prop}
    (hx : exec i s = .next (s.issue sh fun e u => .done (e.write u d (v e u)))) (hP : ∀ e m, P e m (v e s m)) : GivesIn i s sh d P := by
  intro e h
  have hw : Writes i s sh d (v e s) :=
    writes_of_issue (v := v e) (hx.trans (congrArg _ (State.issue_congr h rfl)))
  obtain ⟨t, ht, hreg, hkeep⟩ := hw e h
  exact ⟨t, ht, fun m hm => (hreg m hm).symm ▸ hP e m, hkeep⟩

/-- R13, R149: the same for a predicate. -/
theorem pred_of_issue {v : Env → State → Member → Bool} {P : Env → Member → Prop} (hd : d < 12)
    (hx : exec i s = .next (s.issue sh fun e u => .done (e.writePred u d (v e u)))) (hP : ∀ e m, v e s m = true ↔ P e m) (e : Env)
    (h : Issues s sh e) :
    ∃ t, exec i s = .next t ∧ (∀ m ∈ e.exec, t.pred m d = true ↔ P e m) ∧
      KeepsRegs s t [] [] ∧ KeepsPreds s t e.exec [d] ∧ Kept s t := by
  have hw : WritesPred i s sh d (v e s) :=
    writesPred_of_issue (v := v e) hd (hx.trans (congrArg _ (State.issue_congr h rfl)))
  obtain ⟨t, ht, hpred, hkeep⟩ := hw e h
  exact ⟨t, ht, fun m hm => (hpred m hm).symm ▸ hP e m, hkeep⟩

end group

/-! ### The threads of a tile (R149) -/

section tile
variable {e : Env} {s : State} {m k : Member}

@[simp] theorem Env.mem_tile : k ∈ e.tile s m ↔ e.inTile s m k := by
  simp [Env.tile, Env.inTile]

/-- A tile has at most one executing thread of a lane number. -/
theorem Env.active?_eq_some_iff {n : Nat} : e.active? s m n = some k ↔ e.inTile s m k ∧ k.lane = n := by
  constructor
  · intro h
    have hk := List.find?_some h
    simp only [Bool.and_eq_true, beq_iff_eq] at hk
    obtain ⟨⟨hwid, hlane⟩, htile⟩ := hk
    exact ⟨⟨List.mem_of_find?_eq_some h, hwid, htile⟩, hlane⟩
  · rintro ⟨⟨hk, hwid, htile⟩, rfl⟩
    cases hx : e.active? s m k.lane with
    | none => simpa [hwid, htile] using List.find?_eq_none.mp hx k hk
    | some x =>
      have hxk := List.find?_some hx
      simp only [Bool.and_eq_true, beq_iff_eq] at hxk
      obtain ⟨⟨hxwid, hxlane⟩, -⟩ := hxk
      have : x = k := by
        cases x
        cases k
        simp_all
      rw [this]

theorem Env.active?_eq_none_iff {n : Nat} : e.active? s m n = none ↔ ∀ k, e.inTile s m k → k.lane ≠ n := by
  simp only [Option.eq_none_iff_forall_ne_some, ne_eq, Env.active?_eq_some_iff, not_and]

end tile

/-! ### Fields of a form with a member mask (R147, R150) -/

/-- A code in the low bits of a field. -/
theorem toNat_extractLsb'_zero {w : Nat} (x : BitVec w) (n : Nat) : (x.extractLsb' 0 n).toNat = x.toNat % 2 ^ n := by
  rw [BitVec.extractLsb'_toNat, Nat.shiftRight_zero]

/-- An entry whose form is judged by a rule and by the mask operand. -/
theorem accepts_of_maskOk {opc : BitVec 9} {i : X3 → Instr} {P : X3 → Prop} (r : X3 → X3Rule) (hP : ∀ f, X3Follows f (r f) → P f)
    (he : ∀ f, encode (i f) = some (Code.of64 (f.word opc)) := by intro; rfl)
    (hw : ∀ f, (i f).wf = (f.meets (r f) && maskOk f) := by intro; rfl) : Accepts opc i P :=
  fun f => ⟨he f, fun h => hP f (.of_meets (Bool.and_eq_true_iff.mp ((hw f).symm.trans h)).1)⟩

end Sys2Proof.Machine
end

section
/-! PROOF. SHFL and PAIRX (R152, R153). -/

namespace Sys2Proof.Machine

open Sys2Proof

section
variable {e : Env} {s : State} {f : X3} {m k : Member}

/-- R152: the index in its tile of the lane that a thread's SHFL names. -/
def State.shflSource (s : State) (f : X3) (m : Member) : Int :=
  shflIndex f.rm.toNat (s.partOf m) (m.lane % s.partOf m) (s.reg m f.b.toNat)

theorem Env.shfl_of_lt {n : Nat} (hn : s.shflSource f m = n) (hT : n < s.partOf m) :
    e.shfl s f m = s.reg ((e.active? s m (m.lane / s.partOf m * s.partOf m + n)).getD m) f.a.toNat := by
  unfold State.shflSource at hn
  simp only [Env.shfl, hn, Int.natCast_nonneg, Int.ofNat_lt, hT, and_self, if_true, Int.toNat_natCast]
  cases e.active? s m (m.lane / s.partOf m * s.partOf m + n) <;> rfl

/-- R152: an executing lane of the tile is read. -/
theorem Env.shfl_of_inTile (hk : e.inTile s m k) (hlane : (k.lane : Int) = m.lane / s.partOf m * s.partOf m + s.shflSource f m)
    (h0 : 0 ≤ s.shflSource f m) (hT : s.shflSource f m < s.partOf m) : e.shfl s f m = s.reg k f.a.toNat := by
  obtain ⟨n, hn⟩ := Int.eq_ofNat_of_zero_le h0
  rw [hn] at hlane hT
  rw [Env.shfl_of_lt hn (by exact_mod_cast hT), Env.active?_eq_some_iff.mpr ⟨hk, by exact_mod_cast hlane⟩, Option.getD_some]

/-- R152: a thread that names no lane of the tile, or none that executes, keeps its own value. -/
theorem Env.shfl_of_not_inTile (h : s.shflSource f m < 0 ∨ s.partOf m ≤ s.shflSource f m ∨
      ∀ k, e.inTile s m k → (k.lane : Int) ≠ m.lane / s.partOf m * s.partOf m + s.shflSource f m) :
    e.shfl s f m = s.reg m f.a.toNat := by
  by_cases hin : 0 ≤ s.shflSource f m ∧ s.shflSource f m < s.partOf m
  · obtain ⟨h0, hT⟩ := hin
    have hno := (h.resolve_left (Int.not_lt.mpr h0)).resolve_left (Int.not_le.mpr hT)
    obtain ⟨n, hn⟩ := Int.eq_ofNat_of_zero_le h0
    rw [hn] at hno hT
    have hnone : e.active? s m (m.lane / s.partOf m * s.partOf m + n) = none :=
      Env.active?_eq_none_iff.mpr fun k hk hlane => hno k hk (by exact_mod_cast hlane)
    rw [Env.shfl_of_lt hn (by exact_mod_cast hT), hnone, Option.getD_none]
  · exact if_neg hin

/-- R153: the distance of an exchange, and the lane at that distance. -/
def pairDistance (f : X3) : Nat := 2 ^ (f.b.toNat % 8)

def pairLane (f : X3) (m : Member) : Nat := (BitVec.ofNat 5 m.lane ^^^ BitVec.ofNat 5 (pairDistance f)).toNat

theorem two_pow_extractLsb'_eq_pairDistance (f : X3) : 2 ^ (f.b.extractLsb' 0 3).toNat = pairDistance f :=
  congrArg (2 ^ ·) (toNat_extractLsb'_zero f.b 3)

/-- R153: the value of an executing partner, whose sign the lower lane flips under .neg. -/
theorem Env.pairx_of_inTile (hd : pairDistance f < s.partOf m) (hk : e.inTile s m k) (hlane : k.lane = pairLane f m) :
    e.pairx s f m =
      if m.lane < pairLane f m ∧ f.scope.getLsbD 0 then s.reg k f.a.toNat ^^^ negMask f.ty else s.reg k f.a.toNat := by
  have hactive : e.active? s m (pairLane f m) = some k := Env.active?_eq_some_iff.mpr ⟨hk, hlane⟩
  unfold pairLane at hactive ⊢
  simp only [Env.pairx, two_pow_extractLsb'_eq_pairDistance, if_neg (Nat.not_le.mpr hd), hactive]

/-- R153: a thread whose partner lies in another tile, or does not execute, keeps its own value. -/
theorem Env.pairx_of_not_inTile (h : s.partOf m ≤ pairDistance f ∨ ∀ k, e.inTile s m k → k.lane ≠ pairLane f m) :
    e.pairx s f m = s.reg m f.a.toNat := by
  by_cases hd : s.partOf m ≤ pairDistance f
  · simp only [Env.pairx, two_pow_extractLsb'_eq_pairDistance, if_pos hd]
  · have hactive : e.active? s m (pairLane f m) = none := Env.active?_eq_none_iff.mpr (h.resolve_left hd)
    unfold pairLane at hactive
    simp only [Env.pairx, two_pow_extractLsb'_eq_pairDistance, if_neg hd, hactive]

end

/-- R150: SHFL takes no type. -/
theorem shflW_accepts : Accepts 0x90 .shflW fun f => f.ty = 0 :=
  accepts_of_maskOk (fun _ => { X3Rule.dabc with rm := anyField, scope := oneOf [0, 2] }) fun _ h => eq_zero_of_zeroField h.ty

/-- R150, R153: PAIRX takes the five distances, and a type just where it flips signs. -/
theorem pairxW_accepts : Accepts 0x91 .pairxW fun f =>
    f.b.toNat < 5 ∧ (f.scope.getLsbD 0 = true → f.ty.toNat ∈ [2, 5, 6]) ∧ (f.scope.getLsbD 0 = false → f.ty = 0) := by
  refine accepts_of_maskOk (fun f => { X3Rule.dabc with
    b := under 5, ty := if f.scope.getLsbD 0 then oneOf [2, 5, 6] else zeroField, scope := under 4 }) fun f h => ?_
  have hty := h.ty
  refine ⟨lt_of_under h.b, fun hneg => ?_, fun hneg => ?_⟩
  · rw [if_pos hneg] at hty
    exact List.contains_iff_mem.mp hty
  · rw [if_neg (Bool.eq_false_iff.mp hneg)] at hty
    exact eq_zero_of_zeroField hty

/-- Settles O15: each executing thread by the executing lane of its tile that it names, where there is one and where there is none. -/
theorem shuffleAndPairExchange : Obligations.ShuffleAndPairExchange := by
  unfold Obligations.ShuffleAndPairExchange
  refine ⟨fun s m b a d => ⟨?_, ?_⟩, shflW_accepts, pairxW_accepts⟩
  · exact both_of_op opShfl fun _ _ _ hx => givesIn_of_issue hx fun _ _ =>
      ⟨fun _ => Env.shfl_of_inTile, Env.shfl_of_not_inTile⟩
  · exact both_of_op opPairx fun _ _ _ hx => givesIn_of_issue hx fun _ _ =>
      ⟨fun hd _ => Env.pairx_of_inTile hd, Env.pairx_of_not_inTile⟩

end Sys2Proof.Machine
end

section
/-! PROOF. VOTE, MATCH, REDUX and SCAN (R154 to R156). -/

namespace Sys2Proof.Machine

open Sys2Proof

/-! ### Masks of lanes (R154, R155) -/

theorem getLsbD_maskOf (l : List Nat) {j : Nat} (hj : j < 32) : (maskOf l).getLsbD j = true ↔ j ∈ l := by
  suffices h : ∀ m : BitVec 32, (l.foldl (fun m l => m ||| BitVec.twoPow 32 l) m).getLsbD j = true ↔ m.getLsbD j = true ∨ j ∈ l by
    exact (h 0).trans (by simp)
  induction l with
  | nil => simp
  | cons k l ih =>
    intro m
    have hbit : (BitVec.twoPow 32 k).getLsbD j = true ↔ j = k := by
      rw [BitVec.getLsbD_twoPow, Bool.and_eq_true, decide_eq_true_iff, decide_eq_true_iff]
      omega
    rw [List.foldl_cons, ih, BitVec.getLsbD_or, Bool.or_eq_true, hbit, List.mem_cons, or_assoc]

section masks
variable {e : Env} {s : State} {m : Member}

/-- R154, R155: the mask of the executing threads of a tile that pass a test. -/
theorem getLsbD_maskOf_tile (p : Member → Bool) {j : Nat} (hj : j < 32) :
    (maskOf (((e.tile s m).filter p).map (·.lane))).getLsbD j = true ↔ ∃ k, e.inTile s m k ∧ k.lane = j ∧ p k = true := by
  rw [getLsbD_maskOf _ hj]
  simp only [List.mem_map, List.mem_filter, Env.mem_tile, and_assoc, and_comm (a := p _ = true)]

end masks

/-! ### VOTE (R154) -/

section vote
variable {e : Env} {s : State} {f : X3} {m : Member}

/-- R154: whether the predicate of a lane, negated by A[4], holds. -/
def State.Votes (s : State) (f : X3) (k : Member) : Prop := s.pred k (f.a.toNat % 16) ≠ f.a.getLsbD 4

/-- R154: .any, .all and .eq over the executing threads of a tile. -/
def Env.Carries (e : Env) (s : State) (f : X3) (m : Member) : Prop :=
  (f.rm = 1 ∧ ∃ k, e.inTile s m k ∧ s.Votes f k) ∨ (f.rm = 2 ∧ ∀ k, e.inTile s m k → s.Votes f k) ∨
    (f.rm = 3 ∧ ((∀ k, e.inTile s m k → s.Votes f k) ∨ ∀ k, e.inTile s m k → ¬s.Votes f k))

theorem voteOf_iff (k : Member) : voteOf s f k = true ↔ s.Votes f k := by
  have hbit : (f.a.toNat % 2 ^ 5).testBit 4 = f.a.getLsbD 4 := Nat.testBit_mod_two_pow f.a.toNat 5 4
  rw [voteOf, State.predNeg, toNat_extractLsb'_zero, hbit, Nat.mod_mod_of_dvd _ (by decide), bne_iff_ne, State.Votes]

theorem Env.vote_iff (hrm : f.rm ≠ 0) : e.vote s f m = true ↔ e.Carries s f m := by
  obtain h | h | h : f.rm = 1 ∨ f.rm = 2 ∨ f.rm = 3 := by
    generalize f.rm = r at hrm
    revert r
    decide
  all_goals simp [Env.vote, Env.Carries, h, voteOf_iff, ← Bool.not_eq_true]

/-- R154: a ballot writes a register. -/
theorem ballot_of_vote {i : Instr} {len : Nat} (hx : exec i s = .next (opVote len f s)) (hrm : f.rm = 0) :
    GivesIn i s (shapeXL len f [r1 f.d]) f.d.toNat fun e t v =>
      ∀ j, j < 32 → (v.getLsbD j = true ↔ ∃ k, e.inTile s t k ∧ k.lane = j ∧ s.Votes f k) := by
  simp only [opVote, if_pos hrm] at hx
  refine givesIn_of_issue hx fun e t j hj => ?_
  simp only [getLsbD_maskOf_tile _ hj, voteOf_iff]

/-- R154: the other votes write a predicate. -/
theorem pred_of_vote {i : Instr} {len : Nat} (hx : exec i s = .next (opVote len f s)) (hrm : f.rm ≠ 0) (hd : f.d.toNat % 16 < 12)
    (e : Env) (h : Issues s (shapeXL len f []) e) : ∃ u, exec i s = .next u ∧
      (∀ t ∈ e.exec, u.pred t (f.d.toNat % 16) = true ↔ e.Carries s f t) ∧
      KeepsRegs s u [] [] ∧ KeepsPreds s u e.exec [f.d.toNat % 16] ∧ Kept s u := by
  have hcode : (f.d.extractLsb' 0 4).toNat = f.d.toNat % 16 := toNat_extractLsb'_zero f.d 4
  simp only [opVote, if_neg hrm, hcode] at hx
  exact pred_of_issue hd hx (fun e t => Env.vote_iff hrm) e h

end vote

/-! ### MATCH (R155) -/

section matching
variable {e : Env} {s : State} {f : X3} {m : Member}

/-- R155: the lanes that hold the thread's value. -/
theorem getLsbD_matching (hs : f.scope.getLsbD 0 = false) {j : Nat} (hj : j < 32) :
    (e.matching s f m).getLsbD j = true ↔ ∃ k, e.inTile s m k ∧ k.lane = j ∧ s.reg k f.a.toNat = s.reg m f.a.toNat := by
  simp only [Env.matching, hs, Bool.false_eq_true, if_false, getLsbD_maskOf_tile _ hj, beq_iff_eq]

/-- R155: under .same every lane, where they all hold one value. -/
theorem getLsbD_matching_same (hs : f.scope.getLsbD 0 = true) (h : ∀ k, e.inTile s m k → s.reg k f.a.toNat = s.reg m f.a.toNat)
    {j : Nat} (hj : j < 32) : (e.matching s f m).getLsbD j = true ↔ ∃ k, e.inTile s m k ∧ k.lane = j := by
  have hall : ((e.tile s m).filter fun k => s.reg k f.a.toNat == s.reg m f.a.toNat) = e.tile s m :=
    List.filter_eq_self.mpr fun k hk => beq_iff_eq.mpr (h k (Env.mem_tile.mp hk))
  simp only [Env.matching, hs, if_true, hall, getLsbD_maskOf _ hj, List.mem_map, Env.mem_tile]

/-- R155: under .same none, where two values differ. -/
theorem Env.matching_eq_zero (hs : f.scope.getLsbD 0 = true) (h : ∃ k, e.inTile s m k ∧ ¬s.reg k f.a.toNat = s.reg m f.a.toNat) :
    e.matching s f m = 0 := by
  obtain ⟨k, hk, hne⟩ := h
  have hdiffer : ¬((e.tile s m).filter fun k => s.reg k f.a.toNat == s.reg m f.a.toNat).length = (e.tile s m).length := fun hlen =>
    hne (beq_iff_eq.mp (List.length_filter_eq_length_iff.mp hlen k (Env.mem_tile.mpr hk)))
  simp only [Env.matching, hs, if_true, if_neg hdiffer]

end matching

/-! ### REDUX and SCAN (R156) -/

section reduce
variable {f : X3}

theorem reduceOp_eq (f : X3) : (f.b.extractLsb' 0 3).toNat = f.b.toNat % 8 := toNat_extractLsb'_zero f.b 3

theorem reduceList_cons (hty : f.ty ≠ 2) (x : Word) (l : List Word) :
    reduceList f (x :: l) = l.foldl (reduceInt (f.b.toNat % 8) (f.ty == 1)) x := by
  simp only [reduceList, if_neg hty, reduceOp_eq]

theorem reduceList_nil : reduceList f [] = reduceIdentity (f.b.toNat % 8) f.ty := by
  simp only [reduceList, reduceOp_eq]

/-- R156: the lanes that SCAN reduces for a thread: those below it and, but under .excl, the thread's own. -/
theorem scanned_eq (k m : Member) : (decide (k.lane < m.lane) || (k.lane == m.lane && !f.scope.getLsbD 0)) =
    decide (k.lane < m.lane ∨ k.lane = m.lane ∧ f.scope.getLsbD 0 = false) := by
  rw [Bool.eq_iff_iff]
  simp only [Bool.or_eq_true, Bool.and_eq_true, decide_eq_true_iff, beq_iff_eq, Bool.not_eq_true']

/-- R156: a reduction by an operation of which the result where no lane is reduced is the identity. -/
theorem reduceList_eq_foldl {g : Word → Word → Word} {z : Word} (hty : f.ty ≠ 2) (hg : reduceInt (f.b.toNat % 8) (f.ty == 1) = g)
    (hz : reduceIdentity (f.b.toNat % 8) f.ty = z) (hid : ∀ x, g z x = x) (l : List Word) : reduceList f l = l.foldl g z := by
  cases l with
  | nil => rw [reduceList_nil, hz, List.foldl_nil]
  | cons x l => rw [reduceList_cons hty, hg, List.foldl_cons, hid]

/-- An operation that answers an operand whose key is the least. -/
def Selects (key : Word → Int) (g : Word → Word → Word) : Prop :=
  ∀ a b, (g a b = a ∨ g a b = b) ∧ key (g a b) ≤ key a ∧ key (g a b) ≤ key b

theorem Selects.foldl {key : Word → Int} {g : Word → Word → Word} (hg : Selects key g) (x : Word) (l : List Word) :
    l.foldl g x ∈ x :: l ∧ ∀ y ∈ x :: l, key (l.foldl g x) ≤ key y := by
  induction l generalizing x with
  | nil => exact ⟨List.mem_cons_self, fun y hy => Int.le_of_eq (by rw [List.mem_singleton.mp hy, List.foldl_nil])⟩
  | cons z l ih =>
    obtain ⟨hmem, hle⟩ := ih (g x z)
    obtain ⟨hxz, hx, hz⟩ := hg x z
    obtain ⟨hfirst, hrest⟩ := List.forall_mem_cons.mp hle
    rw [List.foldl_cons]
    refine ⟨?_, List.forall_mem_cons.mpr ⟨Int.le_trans hfirst hx, List.forall_mem_cons.mpr ⟨Int.le_trans hfirst hz, hrest⟩⟩⟩
    obtain heq | hmem := List.mem_cons.mp hmem
    · rw [heq]
      obtain h | h := hxz
      · rw [h]; exact List.mem_cons_self
      · rw [h]; exact List.mem_cons_of_mem _ List.mem_cons_self
    · exact List.mem_cons_of_mem _ (List.mem_cons_of_mem _ hmem)

/-- R156: .min and .max go by the order of the type. -/
theorem less_iff_typed_lt (ty : BitVec 4) (a b : Word) :
    (if (ty == 1) = true then a.ult b else a.slt b) = true ↔ typed ty a < typed ty b := by
  by_cases h : ty = 1#4
  · simp [typed, h, BitVec.ult]
  · simp [typed, h, BitVec.slt]

theorem selects_min (ty : BitVec 4) : Selects (typed ty) (reduceInt 1 (ty == 1)) := by
  intro a b
  simp only [reduceInt, less_iff_typed_lt]
  split
  next h => exact ⟨.inl rfl, Int.le_refl _, Int.le_of_lt h⟩
  next h => exact ⟨.inr rfl, Int.not_lt.mp h, Int.le_refl _⟩

theorem selects_max (ty : BitVec 4) : Selects (fun a => -typed ty a) (reduceInt 2 (ty == 1)) := by
  intro a b
  simp only [reduceInt, less_iff_typed_lt]
  split
  next h => exact ⟨.inr rfl, Int.neg_le_neg (Int.le_of_lt h), Int.le_refl _⟩
  next h => exact ⟨.inl rfl, Int.le_refl _, Int.neg_le_neg (Int.not_lt.mp h)⟩

/-- R156: an operation that selects reduces lanes to the value of one of them. -/
theorem reduceList_of_selects {key : Word → Int} {l : List Word} (hty : f.ty ≠ 2)
    (hg : Selects key (reduceInt (f.b.toNat % 8) (f.ty == 1))) (hl : l ≠ []) :
    reduceList f l ∈ l ∧ ∀ x ∈ l, key (reduceList f l) ≤ key x := by
  obtain ⟨x, l, rfl⟩ := List.exists_cons_of_ne_nil hl
  rw [reduceList_cons hty]
  exact hg.foldl x l

end reduce

/-! ### Accepted fields (R150) -/

/-- R150, R154: the predicate that VOTE writes is one of P0 to P11. -/
theorem voteW_accepts : Accepts 0x92 .voteW fun f => f.rm ≠ 0 → f.d.toNat < 12 := by
  refine accepts_of_maskOk (fun f => {
    d := if f.rm == 0 then anyField else predDst, a := predSrcNeg, c := anyField, rm := anyField, scope := oneOf [0, 2] }) fun f h hrm => ?_
  have hd := h.d
  rw [if_neg (by simpa using hrm)] at hd
  exact of_decide_eq_true hd

theorem matchLW_accepts : Accepts 0x95 .matchLW fun f => f.b = 0 :=
  accepts_of_maskOk (fun _ => { X3Rule.dabc with b := zeroField, scope := under 4 }) fun _ h => eq_zero_of_zeroField h.b

/-- Settles O16: masks bit by bit, votes by what they say of the tile, sums and logic as folds from the identity, and .min and .max as a
value of the list that bounds the others. -/
theorem votesReductionsAndScans : Obligations.VotesReductionsAndScans := by
  unfold Obligations.VotesReductionsAndScans
  refine ⟨fun s m a d => ⟨?_, ?_⟩, fun s m b a d => ⟨?_, ?_, fun f l => ⟨fun hty hop => ?_, fun hty hop => ?_, fun hty hop => ?_,
    fun hty hop => ?_, fun hty hop hl => ?_, fun hty hop hl => ?_⟩⟩, voteW_accepts, matchLW_accepts⟩
  · exact both_of_op opVote fun _ _ _ hx => ⟨ballot_of_vote hx, pred_of_vote hx⟩
  · exact both_of_op opMatch fun _ _ _ hx => givesIn_of_issue hx fun _ _ =>
      ⟨fun hs _ => getLsbD_matching hs, fun hs h _ => getLsbD_matching_same hs h, Env.matching_eq_zero⟩
  · exact both_of_op opRedux fun _ _ _ hx => givesIn_of_issue hx fun _ _ => rfl
  · exact both_of_op opScan fun _ _ _ hx => givesIn_of_issue hx fun _ _ => by
      simp only [scanned_eq]
  · exact reduceList_eq_foldl hty (by rw [hop]; rfl) (by rw [hop]; rfl) BitVec.zero_add l
  · exact reduceList_eq_foldl hty (by rw [hop]; rfl) (by rw [hop]; rfl) (fun _ => BitVec.allOnes_and) l
  · exact reduceList_eq_foldl hty (by rw [hop]; rfl) (by rw [hop]; rfl) (fun _ => BitVec.zero_or) l
  · exact reduceList_eq_foldl hty (by rw [hop]; rfl) (by rw [hop]; rfl) (fun _ => BitVec.zero_xor) l
  · exact reduceList_of_selects hty (hop ▸ selects_min f.ty) hl
  · obtain ⟨hmem, hle⟩ := reduceList_of_selects hty (hop ▸ selects_max f.ty) hl
    exact ⟨hmem, fun x hx => Int.le_of_neg_le_neg (hle x hx)⟩

end Sys2Proof.Machine
end
